-- ==== Sys2Proof/Word.lean ====
section
/-! DEFINITION. The two word types of the hardware (spec/00_scope.md R6, R7): bytes and addresses. -/

namespace Sys2Proof

/-- An 8-bit value: a data register, a memory byte, an opcode, an operand byte (R6, `XLEN`). -/
abbrev Byte := BitVec 8

/-- A 16-bit value: an address, the program counter, a two-byte operand (R6, `PC_WIDTH`). -/
abbrev Addr := BitVec 16

end Sys2Proof
end

