-- ==== Sys2Proof/Config.lean ====
section
/-! DEFINITION. Constants that the source document itself fixes (spec/00_scope.md R6). The parameters whose values are the
spec's own decisions (D5, D6, D7, D9, D12, D13, D22) stand in Machine/Params.lean. The hardware has no free value: its
step is a function of the state (spec/70_reset_and_hazards.md R184). -/

namespace Sys2Proof.Config

/-- `MEM_SIZE`: the bytes the core can reach, addresses 0 to 65535 (R6, R30). -/
def memSize : Nat := 65536

/-- The bytes of the longest instruction (R50). -/
def maxInstrLength : Nat := 3

end Sys2Proof.Config
end

