-- ==== Sys2Proof/Machine/Bits.lean ====
section
/-! DEFINITION. The bit-field and byte-order helpers of spec/00_scope.md R7 that the decoder and the machine share. -/

namespace Sys2Proof

/-- `{hi, lo}`: the 16-bit value of two bytes, `hi` in the high bits (R7, R36, R42). -/
def word (hi lo : Byte) : Addr := hi ++ lo

/-- `w[7:0]` (R7). -/
def loByte (w : Addr) : Byte := w.extractLsb' 0 8

/-- `w[15:8]`, the page of an address (R7, R9). -/
def hiByte (w : Addr) : Byte := w.extractLsb' 8 8

/-- `zext_16`: an unsigned byte widened with zeros (R7, R53). -/
def zext16 (b : Byte) : Addr := b.setWidth 16

end Sys2Proof
end

