-- ==== Sys2Proof/Syntax.lean ====
section
/-! DEFINITION. The syntax: the instructions of spec/30_encoding.md R60, one constructor per row of
spec/opcode_table.json, with the names (mnemonics, addressing modes, flags) and record types the Instruction Table uses. -/

namespace Sys2Proof

/-- The 42 mnemonics (R1, R60). -/
inductive Mnemonic where
  | lda | ldx | ldy | sta | stx | sty | tax
  | tay | txa | tya | tsx | txs | pha | pla
  | php | plp | jsr | rts | jmp | and | ora
  | eor | inx | iny | dex | dey | inc | dec
  | bit | clc | sec | cli | sei | clv | cld
  | sed | nop | cmp | cpx | cpy | adc | sbc
deriving DecidableEq, Repr

/-- The eleven addressing modes, by the tags of R60 (R63 to R73). -/
inductive Mode where
  | none | imm | zp | zpx | zpy | abs | absx | absy | indx | indy | ind
deriving DecidableEq, Repr

/-- The addressing modes that give an effective address for data or a target, each with the operand bytes that stand in the
instruction (R65 to R72). -/
inductive EaMode where
  | zp (op8 : Byte)      -- R65
  | zpx (op8 : Byte)     -- R66
  | zpy (op8 : Byte)     -- R67
  | abs (op16 : Addr)    -- R68
  | absx (op16 : Addr)   -- R69
  | absy (op16 : Addr)   -- R70
  | indx (op8 : Byte)    -- R71
  | indy (op8 : Byte)    -- R72
deriving DecidableEq, Repr

/-- What an instruction carries beside its opcode: nothing (R63), an immediate byte (R64), an effective-address mode (R65 to
R72), or the pointer of the indirect jump (R73). -/
inductive Operand where
  | none
  | imm (op8 : Byte)
  | ea (m : EaMode)
  | ind (op16 : Addr)
deriving DecidableEq, Repr

/-- The direction of an access, used only where it changes timing (R9, R69, R70, R72). -/
inductive Dir where
  | read | write
deriving DecidableEq, Repr

/-- The eight flags of the flag register, by their spec letters (R15): bit 0 `c` to bit 7 `n`. -/
inductive FlagName where
  | c | z | i | d | b | u | v | n
deriving DecidableEq, Repr

/-- The instructions: 102 constructors, one per row of R60. `op8` is the one operand byte, `op16` the 16-bit value of the
two operand bytes, low byte first (R53). -/
inductive Instr where
  | ldaImm (op8 : Byte)  -- 0xA9 LDA #$nn (R80)
  | ldaZp (op8 : Byte)  -- 0xA5 LDA $nn (R80)
  | ldaZpx (op8 : Byte)  -- 0xB5 LDA $nn,X (R80)
  | ldaAbs (op16 : Addr)  -- 0xAD LDA $nnnn (R80)
  | ldaAbsx (op16 : Addr)  -- 0xBD LDA $nnnn,X (R80)
  | ldaAbsy (op16 : Addr)  -- 0xB9 LDA $nnnn,Y (R80)
  | ldaIndx (op8 : Byte)  -- 0xA1 LDA ($nn,X) (R80)
  | ldaIndy (op8 : Byte)  -- 0xB1 LDA ($nn),Y (R80)
  | ldxImm (op8 : Byte)  -- 0xA2 LDX #$nn (R81)
  | ldxZp (op8 : Byte)  -- 0xA6 LDX $nn (R81)
  | ldxZpy (op8 : Byte)  -- 0xB6 LDX $nn,Y (R81)
  | ldxAbs (op16 : Addr)  -- 0xAE LDX $nnnn (R81)
  | ldxAbsy (op16 : Addr)  -- 0xBE LDX $nnnn,Y (R81)
  | ldyImm (op8 : Byte)  -- 0xA0 LDY #$nn (R82)
  | ldyZp (op8 : Byte)  -- 0xA4 LDY $nn (R82)
  | ldyZpx (op8 : Byte)  -- 0xB4 LDY $nn,X (R82)
  | ldyAbs (op16 : Addr)  -- 0xAC LDY $nnnn (R82)
  | ldyAbsx (op16 : Addr)  -- 0xBC LDY $nnnn,X (R82)
  | staZp (op8 : Byte)  -- 0x85 STA $nn (R83)
  | staZpx (op8 : Byte)  -- 0x95 STA $nn,X (R83)
  | staAbs (op16 : Addr)  -- 0x8D STA $nnnn (R83)
  | staAbsx (op16 : Addr)  -- 0x9D STA $nnnn,X (R83)
  | staAbsy (op16 : Addr)  -- 0x99 STA $nnnn,Y (R83)
  | staIndx (op8 : Byte)  -- 0x81 STA ($nn,X) (R83)
  | staIndy (op8 : Byte)  -- 0x91 STA ($nn),Y (R83)
  | stxZp (op8 : Byte)  -- 0x86 STX $nn (R84)
  | stxZpy (op8 : Byte)  -- 0x96 STX $nn,Y (R84)
  | stxAbs (op16 : Addr)  -- 0x8E STX $nnnn (R84)
  | styZp (op8 : Byte)  -- 0x84 STY $nn (R85)
  | styZpx (op8 : Byte)  -- 0x94 STY $nn,X (R85)
  | styAbs (op16 : Addr)  -- 0x8C STY $nnnn (R85)
  | tax  -- 0xAA TAX (R90)
  | tay  -- 0xA8 TAY (R91)
  | txa  -- 0x8A TXA (R92)
  | tya  -- 0x98 TYA (R93)
  | tsx  -- 0xBA TSX (R94)
  | txs  -- 0x9A TXS (R95)
  | pha  -- 0x48 PHA (R96)
  | pla  -- 0x68 PLA (R97)
  | php  -- 0x08 PHP (R98)
  | plp  -- 0x28 PLP (R99)
  | jsr (op16 : Addr)  -- 0x20 JSR $nnnn (R105)
  | rts  -- 0x60 RTS (R106)
  | jmpAbs (op16 : Addr)  -- 0x4C JMP $nnnn (R107)
  | jmpInd (op16 : Addr)  -- 0x6C JMP ($nnnn) (R108)
  | andImm (op8 : Byte)  -- 0x29 AND #$nn (R110)
  | andZp (op8 : Byte)  -- 0x25 AND $nn (R110)
  | andZpx (op8 : Byte)  -- 0x35 AND $nn,X (R110)
  | andAbs (op16 : Addr)  -- 0x2D AND $nnnn (R110)
  | andAbsx (op16 : Addr)  -- 0x3D AND $nnnn,X (R110)
  | andAbsy (op16 : Addr)  -- 0x39 AND $nnnn,Y (R110)
  | andIndx (op8 : Byte)  -- 0x21 AND ($nn,X) (R110)
  | andIndy (op8 : Byte)  -- 0x31 AND ($nn),Y (R110)
  | oraImm (op8 : Byte)  -- 0x09 ORA #$nn (R111)
  | oraZp (op8 : Byte)  -- 0x05 ORA $nn (R111)
  | oraZpx (op8 : Byte)  -- 0x15 ORA $nn,X (R111)
  | oraAbs (op16 : Addr)  -- 0x0D ORA $nnnn (R111)
  | oraAbsx (op16 : Addr)  -- 0x1D ORA $nnnn,X (R111)
  | oraAbsy (op16 : Addr)  -- 0x19 ORA $nnnn,Y (R111)
  | oraIndx (op8 : Byte)  -- 0x01 ORA ($nn,X) (R111)
  | oraIndy (op8 : Byte)  -- 0x11 ORA ($nn),Y (R111)
  | eorImm (op8 : Byte)  -- 0x49 EOR #$nn (R112)
  | eorZp (op8 : Byte)  -- 0x45 EOR $nn (R112)
  | eorZpx (op8 : Byte)  -- 0x55 EOR $nn,X (R112)
  | eorAbs (op16 : Addr)  -- 0x4D EOR $nnnn (R112)
  | eorAbsx (op16 : Addr)  -- 0x5D EOR $nnnn,X (R112)
  | eorAbsy (op16 : Addr)  -- 0x59 EOR $nnnn,Y (R112)
  | eorIndx (op8 : Byte)  -- 0x41 EOR ($nn,X) (R112)
  | eorIndy (op8 : Byte)  -- 0x51 EOR ($nn),Y (R112)
  | inx  -- 0xE8 INX (R115)
  | iny  -- 0xC8 INY (R116)
  | dex  -- 0xCA DEX (R117)
  | dey  -- 0x88 DEY (R118)
  | incZp (op8 : Byte)  -- 0xE6 INC $nn (R119)
  | incZpx (op8 : Byte)  -- 0xF6 INC $nn,X (R119)
  | incAbs (op16 : Addr)  -- 0xEE INC $nnnn (R119)
  | incAbsx (op16 : Addr)  -- 0xFE INC $nnnn,X (R119)
  | decZp (op8 : Byte)  -- 0xC6 DEC $nn (R120)
  | decZpx (op8 : Byte)  -- 0xD6 DEC $nn,X (R120)
  | decAbs (op16 : Addr)  -- 0xCE DEC $nnnn (R120)
  | decAbsx (op16 : Addr)  -- 0xDE DEC $nnnn,X (R120)
  | bitZp (op8 : Byte)  -- 0x24 BIT $nn (R125)
  | bitAbs (op16 : Addr)  -- 0x2C BIT $nnnn (R125)
  | clc  -- 0x18 CLC (R126)
  | sec  -- 0x38 SEC (R127)
  | cli  -- 0x58 CLI (R128)
  | sei  -- 0x78 SEI (R129)
  | clv  -- 0xB8 CLV (R130)
  | cld  -- 0xD8 CLD (R131)
  | sed  -- 0xF8 SED (R132)
  | nop  -- 0xEA NOP (R133)
  | cmpImm (op8 : Byte)  -- 0xC9 CMP #$nn (R135)
  | cmpZp (op8 : Byte)  -- 0xC5 CMP $nn (R135)
  | cmpAbs (op16 : Addr)  -- 0xCD CMP $nnnn (R135)
  | cpxImm (op8 : Byte)  -- 0xE0 CPX #$nn (R136)
  | cpxZp (op8 : Byte)  -- 0xE4 CPX $nn (R136)
  | cpxAbs (op16 : Addr)  -- 0xEC CPX $nnnn (R136)
  | cpyImm (op8 : Byte)  -- 0xC0 CPY #$nn (R137)
  | cpyZp (op8 : Byte)  -- 0xC4 CPY $nn (R137)
  | cpyAbs (op16 : Addr)  -- 0xCC CPY $nnnn (R137)
  | adcImm (op8 : Byte)  -- 0x69 ADC #$nn (R140)
  | sbcImm (op8 : Byte)  -- 0xE9 SBC #$nn (R141)
deriving DecidableEq, Repr

/-- How a table row builds its instruction from the operand bytes that follow the opcode: the formats F1, F2, F3 of R50. -/
inductive Maker where
  | implied (i : Instr)
  | op8 (mk : Byte → Instr)
  | op16 (mk : Addr → Instr)

/-- One row of the Instruction Table (R52, R60): opcode byte, mnemonic, mode, total cycles without a page cross, whether a
page cross costs one more (`+p`), the flags written, and the instruction it builds. -/
structure Row where
  opcode : Byte
  mnemonic : Mnemonic
  mode : Mode
  cycles : Nat
  pagePenalty : Bool
  flags : List FlagName
  make : Maker

/-- Why decoding refuses a byte string. -/
inductive DecodeError where
  | noOpcode                            -- the string is empty
  | unsupportedOpcode (byte : Byte)     -- the byte has no row (R61, R150)
  | missingOperand (opcode : Byte)      -- fewer operand bytes than the row's format has (R50)
deriving DecidableEq, Repr

/-- The answer of the decoder: an instruction with the bytes left over, or a refusal by name. -/
inductive DecodeResult where
  | ok (i : Instr) (rest : List Byte)
  | error (e : DecodeError)
deriving DecidableEq, Repr

end Sys2Proof
end

