-- ==== Sys2Proof/Decode.lean ====
section
/-! DEFINITION. The instruction decoder: the Instruction Table of spec/30_encoding.md R60, lookup on the whole opcode byte
(R52), decoding of a byte string, and after it the encoder, written from the same rule. -/

namespace Sys2Proof

/-- The rows of R60 with opcode bytes 0x00 to 0x3F. -/
def rows0To3 : List Row := [
  ⟨0x01, .ora, .indx, 6, false, [.z, .n], .op8 .oraIndx⟩,
  ⟨0x05, .ora, .zp, 3, false, [.z, .n], .op8 .oraZp⟩,
  ⟨0x08, .php, .none, 3, false, [], .implied .php⟩,
  ⟨0x09, .ora, .imm, 2, false, [.z, .n], .op8 .oraImm⟩,
  ⟨0x0D, .ora, .abs, 4, false, [.z, .n], .op16 .oraAbs⟩,
  ⟨0x11, .ora, .indy, 5, true, [.z, .n], .op8 .oraIndy⟩,
  ⟨0x15, .ora, .zpx, 4, false, [.z, .n], .op8 .oraZpx⟩,
  ⟨0x18, .clc, .none, 2, false, [.c], .implied .clc⟩,
  ⟨0x19, .ora, .absy, 4, true, [.z, .n], .op16 .oraAbsy⟩,
  ⟨0x1D, .ora, .absx, 4, true, [.z, .n], .op16 .oraAbsx⟩,
  ⟨0x20, .jsr, .abs, 6, false, [], .op16 .jsr⟩,
  ⟨0x21, .and, .indx, 6, false, [.z, .n], .op8 .andIndx⟩,
  ⟨0x24, .bit, .zp, 3, false, [.z, .v, .n], .op8 .bitZp⟩,
  ⟨0x25, .and, .zp, 3, false, [.z, .n], .op8 .andZp⟩,
  ⟨0x28, .plp, .none, 3, false, [.c, .z, .i, .d, .b, .u, .v, .n], .implied .plp⟩,
  ⟨0x29, .and, .imm, 2, false, [.z, .n], .op8 .andImm⟩,
  ⟨0x2C, .bit, .abs, 4, false, [.z, .v, .n], .op16 .bitAbs⟩,
  ⟨0x2D, .and, .abs, 4, false, [.z, .n], .op16 .andAbs⟩,
  ⟨0x31, .and, .indy, 5, true, [.z, .n], .op8 .andIndy⟩,
  ⟨0x35, .and, .zpx, 4, false, [.z, .n], .op8 .andZpx⟩,
  ⟨0x38, .sec, .none, 2, false, [.c], .implied .sec⟩,
  ⟨0x39, .and, .absy, 4, true, [.z, .n], .op16 .andAbsy⟩,
  ⟨0x3D, .and, .absx, 4, true, [.z, .n], .op16 .andAbsx⟩]

/-- The rows of R60 with opcode bytes 0x40 to 0x7F. -/
def rows4To7 : List Row := [
  ⟨0x41, .eor, .indx, 6, false, [.z, .n], .op8 .eorIndx⟩,
  ⟨0x45, .eor, .zp, 3, false, [.z, .n], .op8 .eorZp⟩,
  ⟨0x48, .pha, .none, 3, false, [], .implied .pha⟩,
  ⟨0x49, .eor, .imm, 2, false, [.z, .n], .op8 .eorImm⟩,
  ⟨0x4C, .jmp, .abs, 3, false, [], .op16 .jmpAbs⟩,
  ⟨0x4D, .eor, .abs, 4, false, [.z, .n], .op16 .eorAbs⟩,
  ⟨0x51, .eor, .indy, 5, true, [.z, .n], .op8 .eorIndy⟩,
  ⟨0x55, .eor, .zpx, 4, false, [.z, .n], .op8 .eorZpx⟩,
  ⟨0x58, .cli, .none, 2, false, [.i], .implied .cli⟩,
  ⟨0x59, .eor, .absy, 4, true, [.z, .n], .op16 .eorAbsy⟩,
  ⟨0x5D, .eor, .absx, 4, true, [.z, .n], .op16 .eorAbsx⟩,
  ⟨0x60, .rts, .none, 6, false, [], .implied .rts⟩,
  ⟨0x68, .pla, .none, 3, false, [.z, .n], .implied .pla⟩,
  ⟨0x69, .adc, .imm, 2, false, [.c, .z, .n], .op8 .adcImm⟩,
  ⟨0x6C, .jmp, .ind, 5, false, [], .op16 .jmpInd⟩,
  ⟨0x78, .sei, .none, 2, false, [.i], .implied .sei⟩]

/-- The rows of R60 with opcode bytes 0x80 to 0x9F. -/
def rows8To9 : List Row := [
  ⟨0x81, .sta, .indx, 6, false, [], .op8 .staIndx⟩,
  ⟨0x84, .sty, .zp, 3, false, [], .op8 .styZp⟩,
  ⟨0x85, .sta, .zp, 3, false, [], .op8 .staZp⟩,
  ⟨0x86, .stx, .zp, 3, false, [], .op8 .stxZp⟩,
  ⟨0x88, .dey, .none, 2, false, [.z, .n], .implied .dey⟩,
  ⟨0x8A, .txa, .none, 2, false, [.z, .n], .implied .txa⟩,
  ⟨0x8C, .sty, .abs, 4, false, [], .op16 .styAbs⟩,
  ⟨0x8D, .sta, .abs, 4, false, [], .op16 .staAbs⟩,
  ⟨0x8E, .stx, .abs, 4, false, [], .op16 .stxAbs⟩,
  ⟨0x91, .sta, .indy, 6, false, [], .op8 .staIndy⟩,
  ⟨0x94, .sty, .zpx, 4, false, [], .op8 .styZpx⟩,
  ⟨0x95, .sta, .zpx, 4, false, [], .op8 .staZpx⟩,
  ⟨0x96, .stx, .zpy, 4, false, [], .op8 .stxZpy⟩,
  ⟨0x98, .tya, .none, 2, false, [.z, .n], .implied .tya⟩,
  ⟨0x99, .sta, .absy, 5, false, [], .op16 .staAbsy⟩,
  ⟨0x9A, .txs, .none, 2, false, [], .implied .txs⟩,
  ⟨0x9D, .sta, .absx, 5, false, [], .op16 .staAbsx⟩]

/-- The rows of R60 with opcode bytes 0xA0 to 0xBF. -/
def rowsAToB : List Row := [
  ⟨0xA0, .ldy, .imm, 2, false, [.z, .n], .op8 .ldyImm⟩,
  ⟨0xA1, .lda, .indx, 6, false, [.z, .n], .op8 .ldaIndx⟩,
  ⟨0xA2, .ldx, .imm, 2, false, [.z, .n], .op8 .ldxImm⟩,
  ⟨0xA4, .ldy, .zp, 3, false, [.z, .n], .op8 .ldyZp⟩,
  ⟨0xA5, .lda, .zp, 3, false, [.z, .n], .op8 .ldaZp⟩,
  ⟨0xA6, .ldx, .zp, 3, false, [.z, .n], .op8 .ldxZp⟩,
  ⟨0xA8, .tay, .none, 2, false, [.z, .n], .implied .tay⟩,
  ⟨0xA9, .lda, .imm, 2, false, [.z, .n], .op8 .ldaImm⟩,
  ⟨0xAA, .tax, .none, 2, false, [.z, .n], .implied .tax⟩,
  ⟨0xAC, .ldy, .abs, 4, false, [.z, .n], .op16 .ldyAbs⟩,
  ⟨0xAD, .lda, .abs, 4, false, [.z, .n], .op16 .ldaAbs⟩,
  ⟨0xAE, .ldx, .abs, 4, false, [.z, .n], .op16 .ldxAbs⟩,
  ⟨0xB1, .lda, .indy, 5, true, [.z, .n], .op8 .ldaIndy⟩,
  ⟨0xB4, .ldy, .zpx, 4, false, [.z, .n], .op8 .ldyZpx⟩,
  ⟨0xB5, .lda, .zpx, 4, false, [.z, .n], .op8 .ldaZpx⟩,
  ⟨0xB6, .ldx, .zpy, 4, false, [.z, .n], .op8 .ldxZpy⟩,
  ⟨0xB8, .clv, .none, 2, false, [.v], .implied .clv⟩,
  ⟨0xB9, .lda, .absy, 4, true, [.z, .n], .op16 .ldaAbsy⟩,
  ⟨0xBA, .tsx, .none, 2, false, [.z, .n], .implied .tsx⟩,
  ⟨0xBC, .ldy, .absx, 4, true, [.z, .n], .op16 .ldyAbsx⟩,
  ⟨0xBD, .lda, .absx, 4, true, [.z, .n], .op16 .ldaAbsx⟩,
  ⟨0xBE, .ldx, .absy, 4, true, [.z, .n], .op16 .ldxAbsy⟩]

/-- The rows of R60 with opcode bytes 0xC0 to 0xDF. -/
def rowsCToD : List Row := [
  ⟨0xC0, .cpy, .imm, 2, false, [.c, .z, .n], .op8 .cpyImm⟩,
  ⟨0xC4, .cpy, .zp, 3, false, [.c, .z, .n], .op8 .cpyZp⟩,
  ⟨0xC5, .cmp, .zp, 3, false, [.c, .z, .n], .op8 .cmpZp⟩,
  ⟨0xC6, .dec, .zp, 5, false, [.z, .n], .op8 .decZp⟩,
  ⟨0xC8, .iny, .none, 2, false, [.z, .n], .implied .iny⟩,
  ⟨0xC9, .cmp, .imm, 2, false, [.c, .z, .n], .op8 .cmpImm⟩,
  ⟨0xCA, .dex, .none, 2, false, [.z, .n], .implied .dex⟩,
  ⟨0xCC, .cpy, .abs, 4, false, [.c, .z, .n], .op16 .cpyAbs⟩,
  ⟨0xCD, .cmp, .abs, 4, false, [.c, .z, .n], .op16 .cmpAbs⟩,
  ⟨0xCE, .dec, .abs, 6, false, [.z, .n], .op16 .decAbs⟩,
  ⟨0xD6, .dec, .zpx, 6, false, [.z, .n], .op8 .decZpx⟩,
  ⟨0xD8, .cld, .none, 2, false, [.d], .implied .cld⟩,
  ⟨0xDE, .dec, .absx, 7, false, [.z, .n], .op16 .decAbsx⟩]

/-- The rows of R60 with opcode bytes 0xE0 to 0xFF. -/
def rowsEToF : List Row := [
  ⟨0xE0, .cpx, .imm, 2, false, [.c, .z, .n], .op8 .cpxImm⟩,
  ⟨0xE4, .cpx, .zp, 3, false, [.c, .z, .n], .op8 .cpxZp⟩,
  ⟨0xE6, .inc, .zp, 5, false, [.z, .n], .op8 .incZp⟩,
  ⟨0xE8, .inx, .none, 2, false, [.z, .n], .implied .inx⟩,
  ⟨0xE9, .sbc, .imm, 2, false, [.c, .z, .n], .op8 .sbcImm⟩,
  ⟨0xEA, .nop, .none, 2, false, [], .implied .nop⟩,
  ⟨0xEC, .cpx, .abs, 4, false, [.c, .z, .n], .op16 .cpxAbs⟩,
  ⟨0xEE, .inc, .abs, 6, false, [.z, .n], .op16 .incAbs⟩,
  ⟨0xF6, .inc, .zpx, 6, false, [.z, .n], .op8 .incZpx⟩,
  ⟨0xF8, .sed, .none, 2, false, [.d], .implied .sed⟩,
  ⟨0xFE, .inc, .absx, 7, false, [.z, .n], .op16 .incAbsx⟩]

/-- The Instruction Table (R52, R60): a constant of the hardware (R22). -/
def instrTable : List Row :=
  rows0To3 ++ rows4To7 ++ rows8To9 ++ rowsAToB ++ rowsCToD ++ rowsEToF

/-- `lookup(byte)`: the row keyed by the whole opcode byte, or none (R52). -/
def lookup (op : Byte) : Option Row :=
  instrTable.find? (fun r => r.opcode == op)

/-- The number of bytes of an instruction, opcode included, as its mode fixes it (R50). -/
def Mode.length : Mode → Nat
  | .none => 1
  | .imm | .zp | .zpx | .zpy | .indx | .indy => 2
  | .abs | .absx | .absy | .ind => 3

/-- The length of an instruction as a function of its opcode byte alone; an unsupported byte is fetched by itself (R51). -/
def fetchLength (op : Byte) : Nat :=
  match lookup op with
  | none => 1
  | some row => row.mode.length

/-- Builds an instruction from the bytes after its opcode, the low byte of a word first (R50, R53). -/
def Maker.build (op : Byte) : Maker → List Byte → DecodeResult
  | .implied i, rest => .ok i rest
  | .op8 mk, b :: rest => .ok (mk b) rest
  | .op8 _, [] => .error (.missingOperand op)
  | .op16 mk, lo :: hi :: rest => .ok (mk (word hi lo)) rest
  | .op16 _, [_] => .error (.missingOperand op)
  | .op16 _, [] => .error (.missingOperand op)

/-- Decoding (R51, R52): look up the first byte, take the operand bytes its row's format has, leave the rest. -/
def decode : List Byte → DecodeResult
  | [] => .error .noOpcode
  | op :: rest =>
    match lookup op with
    | none => .error (.unsupportedOpcode op)
    | some row => row.make.build op rest

/-- The bytes of a table word, first byte lowest, up to the longest instruction; bits from `nbits` on are 0. -/
def tableWordBytes (nbits w : Nat) : List Byte :=
  let v := w % 2 ^ nbits
  [BitVec.ofNat 8 v, BitVec.ofNat 8 (v / 2 ^ 8), BitVec.ofNat 8 (v / 2 ^ 16)]

/-- What the decoder reads from an instruction whose bits are `w`, numbered as spec/opcode_table.json numbers them. -/
def decodeTableWord (nbits w : Nat) : Option Instr :=
  match decode (tableWordBytes nbits w) with
  | .ok i _ => some i
  | .error _ => none

/-- The encoding line of every instruction (R60 and the rules R80 to R141): opcode byte, mnemonic, operand. -/
def Instr.form : Instr → Byte × Mnemonic × Operand
  | .ldaImm n => (0xA9, .lda, .imm n)
  | .ldaZp n => (0xA5, .lda, .ea (.zp n))
  | .ldaZpx n => (0xB5, .lda, .ea (.zpx n))
  | .ldaAbs w => (0xAD, .lda, .ea (.abs w))
  | .ldaAbsx w => (0xBD, .lda, .ea (.absx w))
  | .ldaAbsy w => (0xB9, .lda, .ea (.absy w))
  | .ldaIndx n => (0xA1, .lda, .ea (.indx n))
  | .ldaIndy n => (0xB1, .lda, .ea (.indy n))
  | .ldxImm n => (0xA2, .ldx, .imm n)
  | .ldxZp n => (0xA6, .ldx, .ea (.zp n))
  | .ldxZpy n => (0xB6, .ldx, .ea (.zpy n))
  | .ldxAbs w => (0xAE, .ldx, .ea (.abs w))
  | .ldxAbsy w => (0xBE, .ldx, .ea (.absy w))
  | .ldyImm n => (0xA0, .ldy, .imm n)
  | .ldyZp n => (0xA4, .ldy, .ea (.zp n))
  | .ldyZpx n => (0xB4, .ldy, .ea (.zpx n))
  | .ldyAbs w => (0xAC, .ldy, .ea (.abs w))
  | .ldyAbsx w => (0xBC, .ldy, .ea (.absx w))
  | .staZp n => (0x85, .sta, .ea (.zp n))
  | .staZpx n => (0x95, .sta, .ea (.zpx n))
  | .staAbs w => (0x8D, .sta, .ea (.abs w))
  | .staAbsx w => (0x9D, .sta, .ea (.absx w))
  | .staAbsy w => (0x99, .sta, .ea (.absy w))
  | .staIndx n => (0x81, .sta, .ea (.indx n))
  | .staIndy n => (0x91, .sta, .ea (.indy n))
  | .stxZp n => (0x86, .stx, .ea (.zp n))
  | .stxZpy n => (0x96, .stx, .ea (.zpy n))
  | .stxAbs w => (0x8E, .stx, .ea (.abs w))
  | .styZp n => (0x84, .sty, .ea (.zp n))
  | .styZpx n => (0x94, .sty, .ea (.zpx n))
  | .styAbs w => (0x8C, .sty, .ea (.abs w))
  | .tax => (0xAA, .tax, .none)
  | .tay => (0xA8, .tay, .none)
  | .txa => (0x8A, .txa, .none)
  | .tya => (0x98, .tya, .none)
  | .tsx => (0xBA, .tsx, .none)
  | .txs => (0x9A, .txs, .none)
  | .pha => (0x48, .pha, .none)
  | .pla => (0x68, .pla, .none)
  | .php => (0x08, .php, .none)
  | .plp => (0x28, .plp, .none)
  | .jsr w => (0x20, .jsr, .ea (.abs w))
  | .rts => (0x60, .rts, .none)
  | .jmpAbs w => (0x4C, .jmp, .ea (.abs w))
  | .jmpInd w => (0x6C, .jmp, .ind w)
  | .andImm n => (0x29, .and, .imm n)
  | .andZp n => (0x25, .and, .ea (.zp n))
  | .andZpx n => (0x35, .and, .ea (.zpx n))
  | .andAbs w => (0x2D, .and, .ea (.abs w))
  | .andAbsx w => (0x3D, .and, .ea (.absx w))
  | .andAbsy w => (0x39, .and, .ea (.absy w))
  | .andIndx n => (0x21, .and, .ea (.indx n))
  | .andIndy n => (0x31, .and, .ea (.indy n))
  | .oraImm n => (0x09, .ora, .imm n)
  | .oraZp n => (0x05, .ora, .ea (.zp n))
  | .oraZpx n => (0x15, .ora, .ea (.zpx n))
  | .oraAbs w => (0x0D, .ora, .ea (.abs w))
  | .oraAbsx w => (0x1D, .ora, .ea (.absx w))
  | .oraAbsy w => (0x19, .ora, .ea (.absy w))
  | .oraIndx n => (0x01, .ora, .ea (.indx n))
  | .oraIndy n => (0x11, .ora, .ea (.indy n))
  | .eorImm n => (0x49, .eor, .imm n)
  | .eorZp n => (0x45, .eor, .ea (.zp n))
  | .eorZpx n => (0x55, .eor, .ea (.zpx n))
  | .eorAbs w => (0x4D, .eor, .ea (.abs w))
  | .eorAbsx w => (0x5D, .eor, .ea (.absx w))
  | .eorAbsy w => (0x59, .eor, .ea (.absy w))
  | .eorIndx n => (0x41, .eor, .ea (.indx n))
  | .eorIndy n => (0x51, .eor, .ea (.indy n))
  | .inx => (0xE8, .inx, .none)
  | .iny => (0xC8, .iny, .none)
  | .dex => (0xCA, .dex, .none)
  | .dey => (0x88, .dey, .none)
  | .incZp n => (0xE6, .inc, .ea (.zp n))
  | .incZpx n => (0xF6, .inc, .ea (.zpx n))
  | .incAbs w => (0xEE, .inc, .ea (.abs w))
  | .incAbsx w => (0xFE, .inc, .ea (.absx w))
  | .decZp n => (0xC6, .dec, .ea (.zp n))
  | .decZpx n => (0xD6, .dec, .ea (.zpx n))
  | .decAbs w => (0xCE, .dec, .ea (.abs w))
  | .decAbsx w => (0xDE, .dec, .ea (.absx w))
  | .bitZp n => (0x24, .bit, .ea (.zp n))
  | .bitAbs w => (0x2C, .bit, .ea (.abs w))
  | .clc => (0x18, .clc, .none)
  | .sec => (0x38, .sec, .none)
  | .cli => (0x58, .cli, .none)
  | .sei => (0x78, .sei, .none)
  | .clv => (0xB8, .clv, .none)
  | .cld => (0xD8, .cld, .none)
  | .sed => (0xF8, .sed, .none)
  | .nop => (0xEA, .nop, .none)
  | .cmpImm n => (0xC9, .cmp, .imm n)
  | .cmpZp n => (0xC5, .cmp, .ea (.zp n))
  | .cmpAbs w => (0xCD, .cmp, .ea (.abs w))
  | .cpxImm n => (0xE0, .cpx, .imm n)
  | .cpxZp n => (0xE4, .cpx, .ea (.zp n))
  | .cpxAbs w => (0xEC, .cpx, .ea (.abs w))
  | .cpyImm n => (0xC0, .cpy, .imm n)
  | .cpyZp n => (0xC4, .cpy, .ea (.zp n))
  | .cpyAbs w => (0xCC, .cpy, .ea (.abs w))
  | .adcImm n => (0x69, .adc, .imm n)
  | .sbcImm n => (0xE9, .sbc, .imm n)

/-- The opcode byte of an instruction (R60). -/
def Instr.opcode (i : Instr) : Byte := i.form.1

/-- The mnemonic of an instruction (R60). -/
def Instr.mnemonic (i : Instr) : Mnemonic := i.form.2.1

/-- The operand of an instruction, with its addressing mode (R60). -/
def Instr.operand (i : Instr) : Operand := i.form.2.2

/-- The tag of an effective-address mode (R65 to R72). -/
def EaMode.mode : EaMode → Mode
  | .zp _ => .zp
  | .zpx _ => .zpx
  | .zpy _ => .zpy
  | .abs _ => .abs
  | .absx _ => .absx
  | .absy _ => .absy
  | .indx _ => .indx
  | .indy _ => .indy

/-- The tag of an operand's mode (R63 to R73). -/
def Operand.mode : Operand → Mode
  | .none => .none
  | .imm _ => .imm
  | .ea m => m.mode
  | .ind _ => .ind

/-- The operand bytes of an effective-address mode, low byte first (R50, R53). -/
def EaMode.bytes : EaMode → List Byte
  | .zp n | .zpx n | .zpy n | .indx n | .indy n => [n]
  | .abs w | .absx w | .absy w => [loByte w, hiByte w]

/-- The operand bytes of an instruction, low byte first (R50, R53). -/
def Operand.bytes : Operand → List Byte
  | .none => []
  | .imm n => [n]
  | .ea m => m.bytes
  | .ind w => [loByte w, hiByte w]

/-- The bytes of an instruction in ascending address order: the opcode, then the operand bytes (R50). -/
def encode (i : Instr) : List Byte := i.opcode :: i.operand.bytes

/-- The length of an instruction in bytes (R50, R60). -/
def Instr.length (i : Instr) : Nat := i.operand.mode.length

end Sys2Proof
end

