-- ==== Sys2Proof/Machine/Params.lean ====
section
/-! DEFINITION. The parameters of spec/00_scope.md R6 whose values are the spec's own decisions (spec/92_eei_decisions.md),
each under the parameter's name. They stand here, beside the operations that use them, because evidence from the real engine
could show a value wrong. -/

namespace Sys2Proof.Machine

/-- `RESET_PC` = 0xFFFC (R6, R23; D5: UNVERIFIED, log entry 8). -/
def resetPc : Addr := 0xFFFC

/-- `STACK_BASE` = 0x0100 (R6, R39; D6: UNVERIFIED, log entry 9). -/
def stackBase : Addr := 0x0100

/-- `SP_RESET` = 0xFF (R6, R23; D7: log entry 8). -/
def spReset : Byte := 0xFF

/-- `PULL_INTERNAL_CYCLES` = 1 (R6, R97, R99; D9: log entry 10). -/
def pullInternalCycles : Nat := 1

/-- `ZP_PTR_WRAP` = false: the high byte of a zero-page pointer at 0xFF comes from 0x0100 (R6, R37; D12: log entry 11). -/
def zpPtrWrap : Bool := false

/-- `JMP_IND_PAGE_WRAP` = false: the high byte of an indirect-jump pointer at 0x..FF comes from the next page (R6, R73,
R108; D13: log entry 11). -/
def jmpIndPageWrap : Bool := false

/-- `MEM_RESET_BYTE` = 0x00: every byte of memory after reset (R6, R23; D22: log entry 7). -/
def memResetByte : Byte := 0x00

end Sys2Proof.Machine
end

