-- ==== Sys2Proof/Machine/State.lean ====
section
/-! DEFINITION. The state of the machine (spec/10_state.md R10 to R23, spec/20_memory.md R30), the reasons a step can stop,
and the state right after reset (R23, R170). -/

namespace Sys2Proof.Machine

/-- The one exception of the hardware (R150). The fault latch holds it (R21), and `step` answers it as its outcome. -/
inductive Fault where
  /-- Raised by decode, and by nothing else, on a byte that R61 lists: the byte and the address it was fetched from. The
  fetch step latches it in a next state (R151); every later step answers it, because the run is over (R178). Safe: the
  machine stops where the hardware stops. -/
  | unsupportedOpcode (byte : Byte) (addr : Addr)
deriving DecidableEq, Repr

/-- Reasons for having no meaning. No instruction of this model is refused. -/
inductive Refusal where
  /-- For an arm of `exec` whose instruction has no meaning yet: no arm uses it. Safe: nothing follows from a refusal. -/
  | notModelled (mnemonic : String)
deriving DecidableEq, Repr

/-- The flag register `P`: eight independent booleans (R15). -/
structure Flags where
  /-- Carry, bit 0. -/
  c : Bool
  /-- Zero, bit 1. -/
  z : Bool
  /-- InterruptDisable, bit 2: storage only (R17). -/
  i : Bool
  /-- Decimal, bit 3: storage only (R17). -/
  d : Bool
  /-- Break, bit 4: storage only (R17). -/
  b : Bool
  /-- Unused, bit 5: storage only (R17). -/
  u : Bool
  /-- Overflow, bit 6. -/
  v : Bool
  /-- Negative, bit 7. -/
  n : Bool
deriving DecidableEq, Repr

/-- The flag register's own `reset()`: all eight flags 0 (R23, R25). -/
def Flags.cleared : Flags :=
  { c := false, z := false, i := false, d := false, b := false, u := false, v := false, n := false }

/-- The memory image as the cells that differ from the reset image, in rising order of address (R30, R31). -/
abbrev Memory := List Host.Cell

/-- All the state the spec gives the machine (R10), and the memory image a run reads and writes (R22, R30). -/
structure State where
  /-- `PC`, the program counter (R14). -/
  pc : Addr
  /-- `SP`, the stack pointer: an offset into the stack page (R13). -/
  sp : Byte
  /-- `A`, the accumulator (R11). -/
  a : Byte
  /-- `X`, an index register (R12). -/
  x : Byte
  /-- `Y`, an index register (R12). -/
  y : Byte
  /-- `P`, the flag register (R15). -/
  p : Flags
  /-- `cyc`, the cycle-budget counter: a signed integer of no fixed width (R20). -/
  cyc : Int
  /-- `fault`, the fault latch (R21). -/
  fault : Option Fault
  /-- The memory image (R30). -/
  mem : Memory
deriving DecidableEq, Repr

/-- The state after `Reset()` (R23, R170). `cyc` has no reset value in the spec: 0 is the model's (DESIGN CHOICE, log entry
2), so that nothing runs until the host supplies a budget. -/
def State.reset : State :=
  { pc := resetPc, sp := spReset, a := 0, x := 0, y := 0, p := Flags.cleared, cyc := 0, fault := none, mem := [] }

/-- The 8-bit registers the host surface names (R25). -/
inductive Reg where
  | a | x | y | sp
deriving DecidableEq, Repr

end Sys2Proof.Machine
end

