-- ==== Sys2Proof/Machine/Flags.lean ====
section
/-! DEFINITION. The flag register unit: packing (spec/10_state.md R15), access by name (R25) and every flag computation the
spec gives (R18, R19, spec/45_bit.md R125, spec/47_compare.md R135). -/

namespace Sys2Proof.Machine

/-- `toByte()`: the packed byte `{N, V, U, B, D, I, Z, C}` (R15). -/
def Flags.toByte (p : Flags) : Byte :=
  BitVec.ofBool p.n ++ BitVec.ofBool p.v ++ BitVec.ofBool p.u ++ BitVec.ofBool p.b ++
    BitVec.ofBool p.d ++ BitVec.ofBool p.i ++ BitVec.ofBool p.z ++ BitVec.ofBool p.c

/-- `fromByte(b)`: every flag from the corresponding bit, none forced (R15). -/
def Flags.fromByte (b : Byte) : Flags :=
  { c := b.getLsbD 0, z := b.getLsbD 1, i := b.getLsbD 2, d := b.getLsbD 3,
    b := b.getLsbD 4, u := b.getLsbD 5, v := b.getLsbD 6, n := b.getLsbD 7 }

/-- `get(flag)` (R25). -/
def Flags.get (p : Flags) : FlagName → Bool
  | .c => p.c
  | .z => p.z
  | .i => p.i
  | .d => p.d
  | .b => p.b
  | .u => p.u
  | .v => p.v
  | .n => p.n

/-- `set(flag, bool)` (R25). -/
def Flags.set (p : Flags) (f : FlagName) (on : Bool) : Flags :=
  match f with
  | .c => { p with c := on }
  | .z => { p with z := on }
  | .i => { p with i := on }
  | .d => { p with d := on }
  | .b => { p with b := on }
  | .u => { p with u := on }
  | .v => { p with v := on }
  | .n => { p with n := on }

/-- `SetZN(v)`: Zero iff the result is 0, Negative iff its bit 7 is set (R18). -/
def Flags.setZN (p : Flags) (v : Byte) : Flags :=
  { p with z := v == 0, n := v.getLsbD 7 }

/-- `SetCarryIfOverflow(s)`: sets Carry when the sum exceeds 0xFF, and never clears it (R19). -/
def Flags.setCarryIfOverflow (p : Flags) (sum : Nat) : Flags :=
  if sum > 0xFF then { p with c := true } else p

/-- The flags of a compare of `reg` with `m`: Carry iff `reg >= m` unsigned, Zero iff equal, Negative from bit 7 of the
difference, all three assigned (R135). -/
def Flags.compare (p : Flags) (reg m : Byte) : Flags :=
  { p with c := decide (m.toNat ≤ reg.toNat), z := reg == m, n := (reg - m).getLsbD 7 }

/-- The flags of BIT: Zero from `A & m`, Overflow and Negative from bits 6 and 7 of the operand itself (R125). -/
def Flags.bitTest (p : Flags) (acc m : Byte) : Flags :=
  { p with z := (acc &&& m) == 0, v := m.getLsbD 6, n := m.getLsbD 7 }

end Sys2Proof.Machine
end

