-- ==== Sys2Proof/Machine/Ops.lean ====
section
/-! DEFINITION. The named operations over memory and registers: the memory collaborator (spec/20_memory.md R30 to R32), the
bus primitives (R33 to R38), the stack (R39 to R41), fetching an instruction's bytes (R35, R36) and taking the one exception
(spec/60_exceptions.md R150, R151). There is no return from an exception (R156). -/

namespace Sys2Proof.Machine

/-! ### The memory image -/

/-- What an address that no cell lists reads as: the reset image (R23). -/
def Memory.unlisted : Byte := memResetByte

/-- Canonical form from address `lo` on: addresses strictly rising and inside the 65536 bytes (R30), no cell equal to what an
unlisted address reads as. -/
def Memory.wfFrom : Nat → Memory → Bool
  | _, [] => true
  | lo, (a, v) :: rest =>
    decide (lo ≤ a) && decide (a < Config.memSize) && v != Memory.unlisted && Memory.wfFrom (a + 1) rest

/-- The memory's canonical form: equal memories are equal lists. -/
def Memory.wf (m : Memory) : Bool := Memory.wfFrom 0 m

/-- `readByte(address)` (R31). -/
def Memory.read : Memory → Nat → Byte
  | [], _ => Memory.unlisted
  | (b, w) :: rest, a => if a = b then w else Memory.read rest a

/-- One cell in front of a list, left out when it holds what an unlisted address reads as. -/
def Memory.consCell (a : Nat) (v : Byte) (m : Memory) : Memory :=
  if v = Memory.unlisted then m else (a, v) :: m

/-- `writeByte(address, byte)`: changes no other address (R31). -/
def Memory.write : Memory → Nat → Byte → Memory
  | [], a, v => Memory.consCell a v []
  | (b, w) :: rest, a, v =>
    if a < b then Memory.consCell a v ((b, w) :: rest)
    else if a = b then Memory.consCell a v rest
    else (b, w) :: Memory.write rest a v

/-! ### One update per field of the state -/

def State.setPc (s : State) (v : Addr) : State := { s with pc := v }
def State.setSp (s : State) (v : Byte) : State := { s with sp := v }
def State.setA (s : State) (v : Byte) : State := { s with a := v }
def State.setX (s : State) (v : Byte) : State := { s with x := v }
def State.setY (s : State) (v : Byte) : State := { s with y := v }
def State.setP (s : State) (v : Flags) : State := { s with p := v }
def State.setFault (s : State) (v : Option Fault) : State := { s with fault := v }
def State.setMem (s : State) (v : Memory) : State := { s with mem := v }
def State.setCyc (s : State) (v : Int) : State := { s with cyc := v }

/-- `Tick(n)`: charges `n` internal cycles, no bus access (R38). -/
def State.tick (s : State) (n : Nat) : State := s.setCyc (s.cyc - n)

/-! ### The bus primitives -/

/-- The byte the memory holds at an address; an address has 16 bits, so it is masked by its type (R31, R32). -/
def State.byteAt (s : State) (addr : Addr) : Byte := s.mem.read addr.toNat

/-- `MemRead(addr, 1)`: the byte, for one cycle (R33). -/
def State.memRead (s : State) (addr : Addr) : Byte × State := (s.byteAt addr, s.tick 1)

/-- `MemWrite(addr, 1, v)`: stores the byte, for one cycle (R34). -/
def State.memWrite (s : State) (addr : Addr) (v : Byte) : State :=
  (s.setMem (s.mem.write addr.toNat v)).tick 1

/-- `FetchByte()`: `MemRead(PC, 1)`, then `PC <- PC + 1` modulo 65536 (R35). -/
def State.fetchByte (s : State) : Byte × State :=
  let r := s.memRead s.pc
  (r.1, r.2.setPc (s.pc + 1))

/-- `n` calls of `FetchByte()` in a row: the bytes in ascending address order, and the state after them (R35, R36). -/
def State.fetchBytes : State → Nat → List Byte × State
  | s, 0 => ([], s)
  | s, n + 1 =>
    let r := s.fetchByte
    let q := State.fetchBytes r.2 n
    (r.1 :: q.1, q.2)

/-- The `n` bytes that stand at `PC`. -/
def State.codeBytes (s : State) (n : Nat) : List Byte := (s.fetchBytes n).1

/-- The effect of fetching an instruction's `n` bytes: `PC` advanced by `n`, `n` cycles charged. Every meaning begins with
it; the values of the bytes are the operands the decoder gave (R14, R35, R177). -/
def State.consume (s : State) (n : Nat) : State := (s.fetchBytes n).2

/-- Where the high byte of a pointer at `ptr` is read: `trunc16(ptr + 1)`, or, if the parameter says `wrap`, the next byte of
`ptr`'s own page (R37; D12, D13). -/
def ptrHighAddr (wrap : Bool) (ptr : Addr) : Addr :=
  if wrap then word (hiByte ptr) (loByte ptr + 1) else ptr + 1

/-- `ReadWord(addr)`: two reads, low byte first (R37), with the parameter for where the high byte lies. -/
def State.readWord (s : State) (wrap : Bool) (ptr : Addr) : Addr × State :=
  let lo := s.memRead ptr
  let hi := lo.2.memRead (ptrHighAddr wrap ptr)
  (word hi.1 lo.1, hi.2)

/-! ### The stack -/

/-- `StackAddr()`: `STACK_BASE + SP` (R39). -/
def stackAddr (sp : Byte) : Addr := stackBase + zext16 sp

/-- `Push(v)`: write at the stack address, then `SP <- SP - 1` modulo 256 (R40). -/
def State.push (s : State) (v : Byte) : State :=
  (s.memWrite (stackAddr s.sp) v).setSp (s.sp - 1)

/-- `Pull()`: `SP <- SP + 1` modulo 256, then read at the stack address (R41). -/
def State.pull (s : State) : Byte × State :=
  (s.setSp (s.sp + 1)).memRead (stackAddr (s.sp + 1))

/-! ### Fetching an instruction, and the one exception -/

/-- Decodes what stands at `PC`: the opcode byte alone says how many bytes belong to the instruction (R51), and an
unsupported opcode has no operand bytes (R150). -/
def State.decodeAt (s : State) : DecodeResult :=
  decode (s.codeBytes (fetchLength (s.byteAt s.pc)))

/-- `raise UnsupportedOpcode(byte, addr)`: the latch records both; no register, flag or memory byte changes, and control goes
nowhere (R150, R151). -/
def State.raiseUnsupported (s : State) (byte : Byte) (addr : Addr) : State :=
  s.setFault (some (.unsupportedOpcode byte addr))

/-- Taking the exception at an instruction boundary: the opcode byte is fetched (one cycle, `PC` one past it), then the fault
is raised with the byte and the address it came from (R151, R177). -/
def State.takeUnsupported (s : State) : State :=
  let r := s.fetchByte
  r.2.raiseUnsupported r.1 s.pc

/-- Stores bytes at ascending addresses from `addr` on, modulo 65536: how the host places a program image (R172). -/
def Memory.writeBytes (m : Memory) (addr : Addr) : List Byte → Memory
  | [] => m
  | b :: rest => Memory.writeBytes (m.write addr.toNat b) (addr + 1) rest

end Sys2Proof.Machine
end

