-- ==== Sys2Proof/Machine/Operands.lean ====
section
/-! DEFINITION. The addressing-mode resolver (spec/30_encoding.md R63 to R75): the address of an operand, the cycles its
mode charges, and the two entry points `Addr(mode, dir)` and `Operand(mode)`. The operand bytes have been fetched
(`State.consume`) before any of these applies. -/

namespace Sys2Proof.Machine

/-- `PageCrossed(a, b)`: the pages of the two addresses differ (R74). -/
def pageCrossed (a b : Addr) : Bool := hiByte a != hiByte b

/-- The pointer of IndirectX: the operand byte plus X, modulo 256, in the zero page (R71). -/
def State.indxPtr (s : State) (op8 : Byte) : Addr := zext16 (op8 + s.x)

/-- The effective address of a mode (R65 to R72). -/
def State.effAddr (s : State) : EaMode → Addr
  | .zp n => zext16 n
  | .zpx n => zext16 (n + s.x)
  | .zpy n => zext16 (n + s.y)
  | .abs w => w
  | .absx w => w + zext16 s.x
  | .absy w => w + zext16 s.y
  | .indx n => (s.readWord zpPtrWrap (s.indxPtr n)).1
  | .indy n => (s.readWord zpPtrWrap (zext16 n)).1 + zext16 s.y

/-- The extra cycle of an index added to a 16-bit base: always for Write, on a page cross for Read (R69, R70, R72). -/
def State.indexCycle (s : State) (dir : Dir) (base ea : Addr) : State :=
  if dir == .write || pageCrossed base ea then s.tick 1 else s

/-- The state after a mode has charged its pointer reads and extra cycles (R65 to R72, R76). -/
def State.resolveCharge (s : State) (dir : Dir) : EaMode → State
  | .zp _ => s
  | .zpx _ => s.tick 1
  | .zpy _ => s.tick 1
  | .abs _ => s
  | .absx w => s.indexCycle dir w (s.effAddr (.absx w))
  | .absy w => s.indexCycle dir w (s.effAddr (.absy w))
  | .indx n => ((s.tick 1).readWord zpPtrWrap (s.indxPtr n)).2
  | .indy n =>
    let base := s.readWord zpPtrWrap (zext16 n)
    base.2.indexCycle dir base.1 (s.effAddr (.indy n))

/-- `Addr(mode, dir)`: the "give me the address" entry point (R65 to R72, R75). -/
def State.resolve (s : State) (dir : Dir) (m : EaMode) : Addr × State :=
  (s.effAddr m, s.resolveCharge dir m)

/-- `Operand(mode)` of a mode with an address: resolve in the Read direction, then one read (R75). -/
def State.operand (s : State) (m : EaMode) : Byte × State :=
  let r := s.resolve .read m
  r.2.memRead r.1

/-! ### The shapes of the instruction families -/

/-- An instruction with an immediate operand: fetch its two bytes, then act on the operand (R64). -/
def State.withImm (s : State) (m : Byte) (act : State → Byte → State) : State :=
  act (s.consume Mode.imm.length) m

/-- An instruction that reads one byte of memory: fetch its bytes, read the operand, act on it (R75). -/
def State.withOperand (s : State) (m : EaMode) (act : State → Byte → State) : State :=
  let r := (s.consume m.mode.length).operand m
  act r.2 r.1

/-- A store: fetch the bytes, resolve in the Write direction, write `v`; the destination is not read (R75, R83). -/
def State.storeByte (s : State) (m : EaMode) (v : Byte) : State :=
  let r := (s.consume m.mode.length).resolve .write m
  r.2.memWrite r.1 v

/-- A read-modify-write: resolve in the Write direction, one read, one internal cycle, one write, SetZN (R119). -/
def State.modifyByte (s : State) (m : EaMode) (f : Byte → Byte) : State :=
  let r := (s.consume m.mode.length).resolve .write m
  let q := r.2.memRead r.1
  let v := f q.1
  let t := (q.2.tick 1).memWrite r.1 v
  t.setP (t.p.setZN v)

/-- A one-byte instruction with no bus access after its opcode: one internal cycle, then the action (R90, R115, R126). -/
def State.withTick (s : State) (act : State → State) : State :=
  act ((s.consume Mode.none.length).tick 1)

end Sys2Proof.Machine
end

