-- ==== Sys2Proof/Machine/LoadStore.lean ====
section
/-! DEFINITION. Loads and stores (spec/40_load_store.md R80 to R85). -/

namespace Sys2Proof.Machine

/-- `A <- m; SetZN(A)` (R80). -/
def State.loadA (s : State) (m : Byte) : State := (s.setA m).setP (s.p.setZN m)

/-- `X <- m; SetZN(X)` (R81). -/
def State.loadX (s : State) (m : Byte) : State := (s.setX m).setP (s.p.setZN m)

/-- `Y <- m; SetZN(Y)` (R82). -/
def State.loadY (s : State) (m : Byte) : State := (s.setY m).setP (s.p.setZN m)

/-- LDA, immediate (R80). -/
def execLdaImm (op8 : Byte) (s : State) : Host.Outcome State Fault Refusal :=
  .next (s.withImm op8 State.loadA)

/-- LDA, zero page (R80). -/
def execLdaZp (op8 : Byte) (s : State) : Host.Outcome State Fault Refusal :=
  .next (s.withOperand (.zp op8) State.loadA)

/-- LDA, zero page, X (R80). -/
def execLdaZpx (op8 : Byte) (s : State) : Host.Outcome State Fault Refusal :=
  .next (s.withOperand (.zpx op8) State.loadA)

/-- LDA, absolute (R80). -/
def execLdaAbs (op16 : Addr) (s : State) : Host.Outcome State Fault Refusal :=
  .next (s.withOperand (.abs op16) State.loadA)

/-- LDA, absolute, X (R80). -/
def execLdaAbsx (op16 : Addr) (s : State) : Host.Outcome State Fault Refusal :=
  .next (s.withOperand (.absx op16) State.loadA)

/-- LDA, absolute, Y (R80). -/
def execLdaAbsy (op16 : Addr) (s : State) : Host.Outcome State Fault Refusal :=
  .next (s.withOperand (.absy op16) State.loadA)

/-- LDA, indirect, X (R80). -/
def execLdaIndx (op8 : Byte) (s : State) : Host.Outcome State Fault Refusal :=
  .next (s.withOperand (.indx op8) State.loadA)

/-- LDA, indirect, Y (R80). -/
def execLdaIndy (op8 : Byte) (s : State) : Host.Outcome State Fault Refusal :=
  .next (s.withOperand (.indy op8) State.loadA)

/-- LDX, immediate (R81). -/
def execLdxImm (op8 : Byte) (s : State) : Host.Outcome State Fault Refusal :=
  .next (s.withImm op8 State.loadX)

/-- LDX, zero page (R81). -/
def execLdxZp (op8 : Byte) (s : State) : Host.Outcome State Fault Refusal :=
  .next (s.withOperand (.zp op8) State.loadX)

/-- LDX, zero page, Y (R81). -/
def execLdxZpy (op8 : Byte) (s : State) : Host.Outcome State Fault Refusal :=
  .next (s.withOperand (.zpy op8) State.loadX)

/-- LDX, absolute (R81). -/
def execLdxAbs (op16 : Addr) (s : State) : Host.Outcome State Fault Refusal :=
  .next (s.withOperand (.abs op16) State.loadX)

/-- LDX, absolute, Y (R81). -/
def execLdxAbsy (op16 : Addr) (s : State) : Host.Outcome State Fault Refusal :=
  .next (s.withOperand (.absy op16) State.loadX)

/-- LDY, immediate (R82). -/
def execLdyImm (op8 : Byte) (s : State) : Host.Outcome State Fault Refusal :=
  .next (s.withImm op8 State.loadY)

/-- LDY, zero page (R82). -/
def execLdyZp (op8 : Byte) (s : State) : Host.Outcome State Fault Refusal :=
  .next (s.withOperand (.zp op8) State.loadY)

/-- LDY, zero page, X (R82). -/
def execLdyZpx (op8 : Byte) (s : State) : Host.Outcome State Fault Refusal :=
  .next (s.withOperand (.zpx op8) State.loadY)

/-- LDY, absolute (R82). -/
def execLdyAbs (op16 : Addr) (s : State) : Host.Outcome State Fault Refusal :=
  .next (s.withOperand (.abs op16) State.loadY)

/-- LDY, absolute, X (R82). -/
def execLdyAbsx (op16 : Addr) (s : State) : Host.Outcome State Fault Refusal :=
  .next (s.withOperand (.absx op16) State.loadY)

/-- STA, zero page (R83). -/
def execStaZp (op8 : Byte) (s : State) : Host.Outcome State Fault Refusal :=
  .next (s.storeByte (.zp op8) s.a)

/-- STA, zero page, X (R83). -/
def execStaZpx (op8 : Byte) (s : State) : Host.Outcome State Fault Refusal :=
  .next (s.storeByte (.zpx op8) s.a)

/-- STA, absolute (R83). -/
def execStaAbs (op16 : Addr) (s : State) : Host.Outcome State Fault Refusal :=
  .next (s.storeByte (.abs op16) s.a)

/-- STA, absolute, X (R83). -/
def execStaAbsx (op16 : Addr) (s : State) : Host.Outcome State Fault Refusal :=
  .next (s.storeByte (.absx op16) s.a)

/-- STA, absolute, Y (R83). -/
def execStaAbsy (op16 : Addr) (s : State) : Host.Outcome State Fault Refusal :=
  .next (s.storeByte (.absy op16) s.a)

/-- STA, indirect, X (R83). -/
def execStaIndx (op8 : Byte) (s : State) : Host.Outcome State Fault Refusal :=
  .next (s.storeByte (.indx op8) s.a)

/-- STA, indirect, Y (R83). -/
def execStaIndy (op8 : Byte) (s : State) : Host.Outcome State Fault Refusal :=
  .next (s.storeByte (.indy op8) s.a)

/-- STX, zero page (R84). -/
def execStxZp (op8 : Byte) (s : State) : Host.Outcome State Fault Refusal :=
  .next (s.storeByte (.zp op8) s.x)

/-- STX, zero page, Y (R84). -/
def execStxZpy (op8 : Byte) (s : State) : Host.Outcome State Fault Refusal :=
  .next (s.storeByte (.zpy op8) s.x)

/-- STX, absolute (R84). -/
def execStxAbs (op16 : Addr) (s : State) : Host.Outcome State Fault Refusal :=
  .next (s.storeByte (.abs op16) s.x)

/-- STY, zero page (R85). -/
def execStyZp (op8 : Byte) (s : State) : Host.Outcome State Fault Refusal :=
  .next (s.storeByte (.zp op8) s.y)

/-- STY, zero page, X (R85). -/
def execStyZpx (op8 : Byte) (s : State) : Host.Outcome State Fault Refusal :=
  .next (s.storeByte (.zpx op8) s.y)

/-- STY, absolute (R85). -/
def execStyAbs (op16 : Addr) (s : State) : Host.Outcome State Fault Refusal :=
  .next (s.storeByte (.abs op16) s.y)

end Sys2Proof.Machine
end

