-- ==== Sys2Proof/Machine/Arith.lean ====
section
/-! DEFINITION. Add and subtract with carry (spec/48_adc_sbc.md R140 to R142). -/

namespace Sys2Proof.Machine

/-- `A + m + P.C` as an unbounded integer, from the Carry before the instruction (R140). -/
def State.carrySum (s : State) (m : Byte) : Nat := s.a.toNat + m.toNat + s.p.c.toNat

/-- `A <- trunc8(s); SetZN(A); SetCarryIfOverflow(s)`; Overflow is not written and Decimal not read (R140). -/
def State.addA (s : State) (m : Byte) : State :=
  let sum := s.carrySum m
  let r := BitVec.ofNat 8 sum
  (s.setA r).setP ((s.p.setZN r).setCarryIfOverflow sum)

/-- ADC: adds the operand and Carry (R140). -/
def execAdcImm (op8 : Byte) (s : State) : Host.Outcome State Fault Refusal := .next (s.withImm op8 State.addA)

/-- SBC: adds the one's complement of the operand and Carry (R141). -/
def execSbcImm (op8 : Byte) (s : State) : Host.Outcome State Fault Refusal := .next (s.withImm (~~~op8) State.addA)

end Sys2Proof.Machine
end

