-- ==== Sys2Proof/Machine/BitTest.lean ====
section
/-! DEFINITION. Bit test (spec/45_bit.md R125). -/

namespace Sys2Proof.Machine

/-- Flags from `A` and the operand; `A` is not written (R125). -/
def State.bitA (s : State) (m : Byte) : State := s.setP (s.p.bitTest s.a m)

/-- BIT, zero page (R125). -/
def execBitZp (op8 : Byte) (s : State) : Host.Outcome State Fault Refusal :=
  .next (s.withOperand (.zp op8) State.bitA)

/-- BIT, absolute (R125). -/
def execBitAbs (op16 : Addr) (s : State) : Host.Outcome State Fault Refusal :=
  .next (s.withOperand (.abs op16) State.bitA)

end Sys2Proof.Machine
end

