-- ==== Sys2Proof/Machine/Compare.lean ====
section
/-! DEFINITION. Compares (spec/47_compare.md R135 to R137). -/

namespace Sys2Proof.Machine

/-- Flags of `A` against the operand (R135). -/
def State.cmpA (s : State) (m : Byte) : State := s.setP (s.p.compare s.a m)

/-- Flags of `X` against the operand (R136). -/
def State.cmpX (s : State) (m : Byte) : State := s.setP (s.p.compare s.x m)

/-- Flags of `Y` against the operand (R137). -/
def State.cmpY (s : State) (m : Byte) : State := s.setP (s.p.compare s.y m)

/-- CMP, immediate (R135). -/
def execCmpImm (op8 : Byte) (s : State) : Host.Outcome State Fault Refusal :=
  .next (s.withImm op8 State.cmpA)

/-- CMP, zero page (R135). -/
def execCmpZp (op8 : Byte) (s : State) : Host.Outcome State Fault Refusal :=
  .next (s.withOperand (.zp op8) State.cmpA)

/-- CMP, absolute (R135). -/
def execCmpAbs (op16 : Addr) (s : State) : Host.Outcome State Fault Refusal :=
  .next (s.withOperand (.abs op16) State.cmpA)

/-- CPX, immediate (R136). -/
def execCpxImm (op8 : Byte) (s : State) : Host.Outcome State Fault Refusal :=
  .next (s.withImm op8 State.cmpX)

/-- CPX, zero page (R136). -/
def execCpxZp (op8 : Byte) (s : State) : Host.Outcome State Fault Refusal :=
  .next (s.withOperand (.zp op8) State.cmpX)

/-- CPX, absolute (R136). -/
def execCpxAbs (op16 : Addr) (s : State) : Host.Outcome State Fault Refusal :=
  .next (s.withOperand (.abs op16) State.cmpX)

/-- CPY, immediate (R137). -/
def execCpyImm (op8 : Byte) (s : State) : Host.Outcome State Fault Refusal :=
  .next (s.withImm op8 State.cmpY)

/-- CPY, zero page (R137). -/
def execCpyZp (op8 : Byte) (s : State) : Host.Outcome State Fault Refusal :=
  .next (s.withOperand (.zp op8) State.cmpY)

/-- CPY, absolute (R137). -/
def execCpyAbs (op16 : Addr) (s : State) : Host.Outcome State Fault Refusal :=
  .next (s.withOperand (.abs op16) State.cmpY)

end Sys2Proof.Machine
end

