-- ==== Sys2Proof/Machine/FlagOps.lean ====
section
/-! DEFINITION. Flag set and clear, and no-operation (spec/46_flag_nop.md R126 to R133). -/

namespace Sys2Proof.Machine

/-- `Tick(1)`, then one flag set or cleared and nothing else (R126 to R132). -/
def State.flagInstr (s : State) (f : FlagName) (on : Bool) : State :=
  s.withTick fun t => t.setP (t.p.set f on)

/-- CLC: `P.C <- 0` (R126). -/
def execClc (s : State) : Host.Outcome State Fault Refusal := .next (s.flagInstr .c false)

/-- SEC: `P.C <- 1` (R127). -/
def execSec (s : State) : Host.Outcome State Fault Refusal := .next (s.flagInstr .c true)

/-- CLI: `P.I <- 0` (R128). -/
def execCli (s : State) : Host.Outcome State Fault Refusal := .next (s.flagInstr .i false)

/-- SEI: `P.I <- 1` (R129). -/
def execSei (s : State) : Host.Outcome State Fault Refusal := .next (s.flagInstr .i true)

/-- CLV: `P.V <- 0` (R130). -/
def execClv (s : State) : Host.Outcome State Fault Refusal := .next (s.flagInstr .v false)

/-- CLD: `P.D <- 0` (R131). -/
def execCld (s : State) : Host.Outcome State Fault Refusal := .next (s.flagInstr .d false)

/-- SED: `P.D <- 1` (R132). -/
def execSed (s : State) : Host.Outcome State Fault Refusal := .next (s.flagInstr .d true)

/-- NOP: `Tick(1)`, nothing else (R133). -/
def execNop (s : State) : Host.Outcome State Fault Refusal := .next (s.withTick id)

end Sys2Proof.Machine
end

