-- ==== Sys2Proof/Machine/IncDec.lean ====
section
/-! DEFINITION. Increment and decrement of registers and memory (spec/44_incdec.md R115 to R120). -/

namespace Sys2Proof.Machine

/-- INX: `Tick(1); X <- X + 1; SetZN(X)` (R115). -/
def execInx (s : State) : Host.Outcome State Fault Refusal := .next (s.withTick fun t => t.loadX (t.x + 1))

/-- INY: `Tick(1); Y <- Y + 1; SetZN(Y)` (R116). -/
def execIny (s : State) : Host.Outcome State Fault Refusal := .next (s.withTick fun t => t.loadY (t.y + 1))

/-- DEX: `Tick(1); X <- X - 1; SetZN(X)` (R117). -/
def execDex (s : State) : Host.Outcome State Fault Refusal := .next (s.withTick fun t => t.loadX (t.x - 1))

/-- DEY: `Tick(1); Y <- Y - 1; SetZN(Y)` (R118). -/
def execDey (s : State) : Host.Outcome State Fault Refusal := .next (s.withTick fun t => t.loadY (t.y - 1))

/-- INC: adds 1 to a byte of memory, modulo 256 (R119). -/
def State.incByte (s : State) (m : EaMode) : State := s.modifyByte m (· + 1)

/-- DEC: subtracts 1 from a byte of memory, modulo 256 (R120). -/
def State.decByte (s : State) (m : EaMode) : State := s.modifyByte m (· - 1)

/-- INC, zero page (R119). -/
def execIncZp (op8 : Byte) (s : State) : Host.Outcome State Fault Refusal :=
  .next (s.incByte (.zp op8))

/-- INC, zero page, X (R119). -/
def execIncZpx (op8 : Byte) (s : State) : Host.Outcome State Fault Refusal :=
  .next (s.incByte (.zpx op8))

/-- INC, absolute (R119). -/
def execIncAbs (op16 : Addr) (s : State) : Host.Outcome State Fault Refusal :=
  .next (s.incByte (.abs op16))

/-- INC, absolute, X (R119). -/
def execIncAbsx (op16 : Addr) (s : State) : Host.Outcome State Fault Refusal :=
  .next (s.incByte (.absx op16))

/-- DEC, zero page (R120). -/
def execDecZp (op8 : Byte) (s : State) : Host.Outcome State Fault Refusal :=
  .next (s.decByte (.zp op8))

/-- DEC, zero page, X (R120). -/
def execDecZpx (op8 : Byte) (s : State) : Host.Outcome State Fault Refusal :=
  .next (s.decByte (.zpx op8))

/-- DEC, absolute (R120). -/
def execDecAbs (op16 : Addr) (s : State) : Host.Outcome State Fault Refusal :=
  .next (s.decByte (.abs op16))

/-- DEC, absolute, X (R120). -/
def execDecAbsx (op16 : Addr) (s : State) : Host.Outcome State Fault Refusal :=
  .next (s.decByte (.absx op16))

end Sys2Proof.Machine
end

