-- ==== Sys2Proof/Machine/Jump.lean ====
section
/-! DEFINITION. Subroutine call, return and jump (spec/42_subroutine_jump.md R105 to R108). -/

namespace Sys2Proof.Machine

/-- JSR: pushes the address of its own last byte, high byte first, one internal cycle, then `PC <- target` (R105). -/
def execJsr (target : Addr) (s : State) : Host.Outcome State Fault Refusal :=
  let t := s.consume Mode.abs.length
  let ret := t.pc - 1
  .next ((((t.push (hiByte ret)).push (loByte ret)).tick 1).setPc target)

/-- RTS: pulls the low byte, then the high byte, three internal cycles, then `PC` is the word plus 1 (R106). -/
def execRts (s : State) : Host.Outcome State Fault Refusal :=
  let lo := (s.consume Mode.none.length).pull
  let hi := lo.2.pull
  .next ((hi.2.tick 3).setPc (word hi.1 lo.1 + 1))

/-- JMP absolute: `PC <- target` (R107). -/
def execJmpAbs (target : Addr) (s : State) : Host.Outcome State Fault Refusal :=
  .next ((s.consume Mode.abs.length).setPc target)

/-- JMP indirect: `PC <- ReadWord(ptr)`, the high byte from `trunc16(ptr + 1)` (R73, R108). -/
def execJmpInd (ptr : Addr) (s : State) : Host.Outcome State Fault Refusal :=
  let r := (s.consume Mode.ind.length).readWord jmpIndPageWrap ptr
  .next (r.2.setPc r.1)

end Sys2Proof.Machine
end

