-- ==== Sys2Proof/Machine/Logical.lean ====
section
/-! DEFINITION. Logical operations (spec/43_logical.md R110 to R112). -/

namespace Sys2Proof.Machine

/-- `A <- A & m; SetZN(A)` (R110). -/
def State.andA (s : State) (m : Byte) : State := s.loadA (s.a &&& m)

/-- `A <- A | m; SetZN(A)` (R111). -/
def State.oraA (s : State) (m : Byte) : State := s.loadA (s.a ||| m)

/-- `A <- A ^ m; SetZN(A)` (R112). -/
def State.eorA (s : State) (m : Byte) : State := s.loadA (s.a ^^^ m)

/-- AND, immediate (R110). -/
def execAndImm (op8 : Byte) (s : State) : Host.Outcome State Fault Refusal :=
  .next (s.withImm op8 State.andA)

/-- AND, zero page (R110). -/
def execAndZp (op8 : Byte) (s : State) : Host.Outcome State Fault Refusal :=
  .next (s.withOperand (.zp op8) State.andA)

/-- AND, zero page, X (R110). -/
def execAndZpx (op8 : Byte) (s : State) : Host.Outcome State Fault Refusal :=
  .next (s.withOperand (.zpx op8) State.andA)

/-- AND, absolute (R110). -/
def execAndAbs (op16 : Addr) (s : State) : Host.Outcome State Fault Refusal :=
  .next (s.withOperand (.abs op16) State.andA)

/-- AND, absolute, X (R110). -/
def execAndAbsx (op16 : Addr) (s : State) : Host.Outcome State Fault Refusal :=
  .next (s.withOperand (.absx op16) State.andA)

/-- AND, absolute, Y (R110). -/
def execAndAbsy (op16 : Addr) (s : State) : Host.Outcome State Fault Refusal :=
  .next (s.withOperand (.absy op16) State.andA)

/-- AND, indirect, X (R110). -/
def execAndIndx (op8 : Byte) (s : State) : Host.Outcome State Fault Refusal :=
  .next (s.withOperand (.indx op8) State.andA)

/-- AND, indirect, Y (R110). -/
def execAndIndy (op8 : Byte) (s : State) : Host.Outcome State Fault Refusal :=
  .next (s.withOperand (.indy op8) State.andA)

/-- ORA, immediate (R111). -/
def execOraImm (op8 : Byte) (s : State) : Host.Outcome State Fault Refusal :=
  .next (s.withImm op8 State.oraA)

/-- ORA, zero page (R111). -/
def execOraZp (op8 : Byte) (s : State) : Host.Outcome State Fault Refusal :=
  .next (s.withOperand (.zp op8) State.oraA)

/-- ORA, zero page, X (R111). -/
def execOraZpx (op8 : Byte) (s : State) : Host.Outcome State Fault Refusal :=
  .next (s.withOperand (.zpx op8) State.oraA)

/-- ORA, absolute (R111). -/
def execOraAbs (op16 : Addr) (s : State) : Host.Outcome State Fault Refusal :=
  .next (s.withOperand (.abs op16) State.oraA)

/-- ORA, absolute, X (R111). -/
def execOraAbsx (op16 : Addr) (s : State) : Host.Outcome State Fault Refusal :=
  .next (s.withOperand (.absx op16) State.oraA)

/-- ORA, absolute, Y (R111). -/
def execOraAbsy (op16 : Addr) (s : State) : Host.Outcome State Fault Refusal :=
  .next (s.withOperand (.absy op16) State.oraA)

/-- ORA, indirect, X (R111). -/
def execOraIndx (op8 : Byte) (s : State) : Host.Outcome State Fault Refusal :=
  .next (s.withOperand (.indx op8) State.oraA)

/-- ORA, indirect, Y (R111). -/
def execOraIndy (op8 : Byte) (s : State) : Host.Outcome State Fault Refusal :=
  .next (s.withOperand (.indy op8) State.oraA)

/-- EOR, immediate (R112). -/
def execEorImm (op8 : Byte) (s : State) : Host.Outcome State Fault Refusal :=
  .next (s.withImm op8 State.eorA)

/-- EOR, zero page (R112). -/
def execEorZp (op8 : Byte) (s : State) : Host.Outcome State Fault Refusal :=
  .next (s.withOperand (.zp op8) State.eorA)

/-- EOR, zero page, X (R112). -/
def execEorZpx (op8 : Byte) (s : State) : Host.Outcome State Fault Refusal :=
  .next (s.withOperand (.zpx op8) State.eorA)

/-- EOR, absolute (R112). -/
def execEorAbs (op16 : Addr) (s : State) : Host.Outcome State Fault Refusal :=
  .next (s.withOperand (.abs op16) State.eorA)

/-- EOR, absolute, X (R112). -/
def execEorAbsx (op16 : Addr) (s : State) : Host.Outcome State Fault Refusal :=
  .next (s.withOperand (.absx op16) State.eorA)

/-- EOR, absolute, Y (R112). -/
def execEorAbsy (op16 : Addr) (s : State) : Host.Outcome State Fault Refusal :=
  .next (s.withOperand (.absy op16) State.eorA)

/-- EOR, indirect, X (R112). -/
def execEorIndx (op8 : Byte) (s : State) : Host.Outcome State Fault Refusal :=
  .next (s.withOperand (.indx op8) State.eorA)

/-- EOR, indirect, Y (R112). -/
def execEorIndy (op8 : Byte) (s : State) : Host.Outcome State Fault Refusal :=
  .next (s.withOperand (.indy op8) State.eorA)

end Sys2Proof.Machine
end

