-- ==== Sys2Proof/Machine/Transfer.lean ====
section
/-! DEFINITION. Register transfers and stack push and pull (spec/41_transfer_stack.md R90 to R99). -/

namespace Sys2Proof.Machine

/-- TAX: `Tick(1); X <- A; SetZN(X)` (R90). -/
def execTax (s : State) : Host.Outcome State Fault Refusal := .next (s.withTick fun t => t.loadX t.a)

/-- TAY: `Tick(1); Y <- A; SetZN(Y)` (R91). -/
def execTay (s : State) : Host.Outcome State Fault Refusal := .next (s.withTick fun t => t.loadY t.a)

/-- TXA: `Tick(1); A <- X; SetZN(A)` (R92). -/
def execTxa (s : State) : Host.Outcome State Fault Refusal := .next (s.withTick fun t => t.loadA t.x)

/-- TYA: `Tick(1); A <- Y; SetZN(A)` (R93). -/
def execTya (s : State) : Host.Outcome State Fault Refusal := .next (s.withTick fun t => t.loadA t.y)

/-- TSX: `Tick(1); X <- SP; SetZN(X)`; the 8-bit offset, not the stack address (R94). -/
def execTsx (s : State) : Host.Outcome State Fault Refusal := .next (s.withTick fun t => t.loadX t.sp)

/-- TXS: `Tick(1); SP <- X`; no flags (R95). -/
def execTxs (s : State) : Host.Outcome State Fault Refusal := .next (s.withTick fun t => t.setSp t.x)

/-- A push instruction: `Push(v); Tick(1)` (R96, R98). -/
def State.pushInstr (s : State) (v : Byte) : State := ((s.consume Mode.none.length).push v).tick 1

/-- A pull instruction: `Pull(); Tick(PULL_INTERNAL_CYCLES)`, then act on the byte (R97, R99). -/
def State.pullInstr (s : State) (act : State → Byte → State) : State :=
  let r := (s.consume Mode.none.length).pull
  act (r.2.tick pullInternalCycles) r.1

/-- PHA: `Push(A); Tick(1)` (R96). -/
def execPha (s : State) : Host.Outcome State Fault Refusal := .next (s.pushInstr s.a)

/-- PLA: `A <- Pull(); Tick(PULL_INTERNAL_CYCLES); SetZN(A)` (R97). -/
def execPla (s : State) : Host.Outcome State Fault Refusal := .next (s.pullInstr State.loadA)

/-- PHP: `Push(P); Tick(1)`, the packed byte as held, bits 4 and 5 not forced (R98). -/
def execPhp (s : State) : Host.Outcome State Fault Refusal := .next (s.pushInstr s.p.toByte)

/-- PLP: `b <- Pull(); Tick(PULL_INTERNAL_CYCLES); fromByte(b)`, all eight flags (R99). -/
def execPlp (s : State) : Host.Outcome State Fault Refusal :=
  .next (s.pullInstr fun t b => t.setP (Flags.fromByte b))

end Sys2Proof.Machine
end

