-- ==== Sys2Proof/Machine/Step.lean ====
section
/-! DEFINITION. One step of the run loop, one whole instruction (spec/70_reset_and_hazards.md R177). -/

namespace Sys2Proof.Machine

/-- R177. A latched fault ends the run: the step answers it (R178 b). With the budget spent the run has ended and the core
holds its state (R178 a, R160). Otherwise the instruction at `PC` runs to completion, or an unsupported opcode byte is taken
as the exception (R151). -/
def step (s : State) : Host.Outcome State Fault Refusal :=
  match s.fault with
  | some f => .fault f
  | none =>
    if s.cyc ≤ 0 then .next s
    else
      match s.decodeAt with
      | .ok i _ => exec i s
      | .error _ => .next s.takeUnsupported

/-- The state with the bytes of a table word stored at `PC`, where `step` fetches next, and what the fetch needs beside them:
no latched fault, and a positive budget (a budget of 1 runs one instruction, R160). Stands for the host's writing of an image
and its call of `Exec` (R172; log entry 1). -/
def State.withFetchWord (s : State) (nbits w : Nat) : State :=
  { s with
    mem := s.mem.writeBytes s.pc (tableWordBytes nbits w)
    fault := none
    cyc := if s.cyc ≤ 0 then 1 else s.cyc }

end Sys2Proof.Machine
end

