-- ==== Sys2Proof/Machine/HostSide.lean ====
section
/-! DEFINITION. The host-side surface of the core: `Reset()` and `Exec(budget)` (spec/70_reset_and_hazards.md R170, R176 to
R178), register and flag access (spec/10_state.md R25) and writes of the memory image (R172, R180). The host uses these
between runs only (R180; log entry 17). -/

namespace Sys2Proof.Machine

/-- `Reset()`: every piece of core state but `cyc` to its reset value, memory to its baseline, in one step (R170). -/
def State.hostReset (s : State) : State := { State.reset with cyc := s.cyc }

/-- The start of `Exec(budget)`: `cyc <- budget; fault <- none` (R176). -/
def State.startRun (s : State) (budget : Int) : State := (s.setCyc budget).setFault none

/-- The loop of R177, at most `n` times round; it stays where it is once the run has ended (R178). -/
def runLoop : Nat → State → State
  | 0, s => s
  | n + 1, s =>
    match step s with
    | .next t => runLoop n t
    | .fault _ => s
    | .refused _ => s

/-- `Exec(budget)`: the loop from the start of a run to its end. Every turn charges at least one cycle, so `budget` turns
reach the end (R176 to R179; log entry 19). -/
def State.hostExec (s : State) (budget : Int) : State := runLoop budget.toNat (s.startRun budget)

/-- Register read (R25). -/
def State.hostReadReg (s : State) : Reg → Byte
  | .a => s.a
  | .x => s.x
  | .y => s.y
  | .sp => s.sp

/-- Register write: stores `trunc8(v)` (R25). -/
def State.hostWriteReg (s : State) (r : Reg) (v : Int) : State :=
  match r with
  | .a => s.setA (BitVec.ofInt 8 v)
  | .x => s.setX (BitVec.ofInt 8 v)
  | .y => s.setY (BitVec.ofInt 8 v)
  | .sp => s.setSp (BitVec.ofInt 8 v)

/-- Read of `PC` (R25). -/
def State.hostReadPc (s : State) : Addr := s.pc

/-- Write of `PC`: stores `trunc16(v)`; fetches nothing (R25). -/
def State.hostWritePc (s : State) (v : Int) : State := s.setPc (BitVec.ofInt 16 v)

/-- The flag register's `set(flag, bool)` (R25). -/
def State.hostSetFlag (s : State) (f : FlagName) (on : Bool) : State := s.setP (s.p.set f on)

/-- The flag register's `get(flag)` (R25). -/
def State.hostGetFlag (s : State) (f : FlagName) : Bool := s.p.get f

/-- The flag register's `reset()`: all eight flags 0 (R25). -/
def State.hostResetFlags (s : State) : State := s.setP Flags.cleared

/-- The flag register's `toByte()` (R15, R25). -/
def State.hostFlagByte (s : State) : Byte := s.p.toByte

/-- The flag register's `fromByte(u8)` (R15, R25). -/
def State.hostSetFlagByte (s : State) (b : Byte) : State := s.setP (Flags.fromByte b)

/-- A byte of the memory image as the host reads it: no cycle is charged (R31). -/
def State.hostReadByte (s : State) (addr : Addr) : Byte := s.byteAt addr

/-- A byte of the memory image written by the host: no cycle is charged (R31, R172). -/
def State.hostWriteByte (s : State) (addr : Addr) (v : Byte) : State := s.setMem (s.mem.write addr.toNat v)

/-- A program image written from `addr` on, in ascending address order (R172). -/
def State.hostWriteImage (s : State) (addr : Addr) (bytes : List Byte) : State :=
  s.setMem (s.mem.writeBytes addr bytes)

end Sys2Proof.Machine
end

