-- ==== Sys2Proof/WellFormed.lean ====
section
/-! DEFINITION. Well-formedness. Every term of Instr is well-formed by its type: the 102 constructors are exactly the pairs
of mnemonic and mode of spec/30_encoding.md R60, and an operand has exactly the bits its format gives it (R50). What can be
ill-formed is a pair of mnemonic and mode the table lacks (R5, R60), or a byte string that is no instruction (R50, R61). -/

namespace Sys2Proof

/-- The table has a row for this mnemonic in this mode (R60). -/
def formWf (m : Mnemonic) (md : Mode) : Bool :=
  instrTable.any (fun r => r.mnemonic == m && r.mode == md)

/-- An instruction's mnemonic and mode stand together in the table (R60). -/
def Instr.wf (i : Instr) : Bool := formWf i.mnemonic i.operand.mode

/-- A byte string is exactly one instruction: a supported opcode byte and the operand bytes its mode has, no more (R50,
R51, R61). -/
def bytesWf : List Byte → Bool
  | [] => false
  | op :: rest =>
    match lookup op with
    | none => false
    | some row => rest.length + 1 == row.mode.length

end Sys2Proof
end

