-- ==== Sys2Proof/Safety.lean ====
section
/-! DEFINITION. What counts as a running, an ended and a safe state, and the invariant of the machine, in the terms the
claims use. -/

namespace Sys2Proof.Machine

/-- The run goes on at this boundary: the condition of the loop of R177. -/
abbrev State.Live (s : State) : Prop := s.fault = none ∧ 0 < s.cyc

/-- The run has ended normally: the budget is spent and no fault is latched (R178 a). -/
abbrev State.EndedNormally (s : State) : Prop := s.fault = none ∧ s.cyc ≤ 0

/-- The run has ended, in one of its two ways (R178). -/
abbrev State.Ended (s : State) : Prop := s.fault ≠ none ∨ s.cyc ≤ 0

/-- A run with this budget is safe: it ends, and not by the fault (R156, R178). -/
abbrev State.RunsSafely (s : State) (budget : Int) : Prop := (s.hostExec budget).EndedNormally

/-- What the latch holds is true: an unsupported byte (R61), standing at the recorded address, with `PC` one past it (R21,
R150, R151). -/
def State.latchOk (s : State) : Bool :=
  match s.fault with
  | none => true
  | some (.unsupportedOpcode byte addr) => (lookup byte).isNone && s.byteAt addr == byte && s.pc == addr + 1

/-- The invariant of the machine: memory in canonical form, and a truthful latch. -/
abbrev State.Inv (s : State) : Prop := s.mem.wf = true ∧ s.latchOk = true

end Sys2Proof.Machine
end

