-- ==== Sys2Proof/Certificates/Slice0/Obligations.lean ====
section
/-! DEFINITION. The statements for the provers, from the numbered rules of spec/. The first part is the vocabulary: what the
rules say an instruction leaves, written from their text and not from the meanings. Opcode bytes (spec decision D1) occur in
the encoding statements only. -/

open Sys2Proof Sys2Proof.Machine

namespace Sys2Proof.Claims

/-- The little-endian word at an address, its high byte at the next address modulo 65536 (R37, R42). -/
def wordAt (s : State) (ptr : Addr) : Addr := word (s.byteAt (ptr + 1)) (s.byteAt ptr)

/-- A byte widened with zeros to an address (R53). -/
def wide (b : Byte) : Addr := BitVec.ofNat 16 b.toNat

/-- The effective address of each mode, as R65 to R72 give it. -/
def ea (s : State) : EaMode → Addr
  | .zp n => wide n
  | .zpx n => wide (n + s.x)
  | .zpy n => wide (n + s.y)
  | .abs w => w
  | .absx w => w + wide s.x
  | .absy w => w + wide s.y
  | .indx n => wordAt s (wide (n + s.x))
  | .indy n => wordAt s (wide n) + wide s.y

/-- One cycle when two addresses lie in different pages of 256 bytes (R9, R74). -/
def crossing (base target : Addr) : Nat := if base.toNat / 256 = target.toNat / 256 then 0 else 1

/-- The cycle an index costs a read on a page cross: only the modes with an index on a 16-bit base have one (R69, R70,
R72). -/
def penalty (s : State) : EaMode → Nat
  | .absx w => crossing w (ea s (.absx w))
  | .absy w => crossing w (ea s (.absy w))
  | .indy n => crossing (wordAt s (wide n)) (ea s (.indy n))
  | _ => 0

/-- The total cycles of an instruction that reads its operand from memory (R182). -/
def readCost (s : State) : EaMode → Nat
  | .zp _ => 3
  | .zpx _ => 4
  | .zpy _ => 4
  | .abs _ => 4
  | .absx w => 4 + penalty s (.absx w)
  | .absy w => 4 + penalty s (.absy w)
  | .indx _ => 6
  | .indy n => 5 + penalty s (.indy n)

/-- The total cycles of a store: the index cycle is always charged (R182). -/
def writeCost : EaMode → Nat
  | .zp _ => 3
  | .zpx _ => 4
  | .zpy _ => 4
  | .abs _ => 4
  | .absx _ => 5
  | .absy _ => 5
  | .indx _ => 6
  | .indy _ => 6

/-- The length of an instruction in each mode (R50). -/
def size : EaMode → Nat
  | .zp _ | .zpx _ | .zpy _ | .indx _ | .indy _ => 2
  | .abs _ | .absx _ | .absy _ => 3

/-- `PC` past an instruction of `len` bytes and `cost` cycles charged; all else as it was (R14, R182). -/
def after (s : State) (len cost : Nat) : State :=
  { s with pc := s.pc + BitVec.ofNat 16 len, cyc := s.cyc - cost }

/-- `after` for an instruction that reads its operand from memory. -/
def afterRead (s : State) (m : EaMode) : State := after s (size m) (readCost s m)

/-- The operand of an instruction that reads it from memory (R75). -/
def rd (s : State) (m : EaMode) : Byte := s.byteAt (ea s m)

/-- Zero and Negative assigned from a result (R18). -/
def zn (p : Flags) (v : Byte) : Flags := { p with z := decide (v.toNat = 0), n := decide (128 ≤ v.toNat) }

/-- A result put into `A`, with Zero and Negative from it. -/
def putA (s : State) (v : Byte) : State := { s with a := v, p := zn s.p v }

/-- A result put into `X`, with Zero and Negative from it. -/
def putX (s : State) (v : Byte) : State := { s with x := v, p := zn s.p v }

/-- A result put into `Y`, with Zero and Negative from it. -/
def putY (s : State) (v : Byte) : State := { s with y := v, p := zn s.p v }

/-- After a store of `v` through a mode: one byte written at the effective address, no flag (R83). -/
def stored (s : State) (m : EaMode) (v : Byte) : State :=
  { after s (size m) (writeCost m) with mem := s.mem.write (ea s m).toNat v }

/-- After a read-modify-write that leaves `v`: two cycles more than a store, Zero and Negative from `v` (R119). -/
def modified (s : State) (m : EaMode) (v : Byte) : State :=
  { after s (size m) (writeCost m + 2) with mem := s.mem.write (ea s m).toNat v, p := zn s.p v }

/-- The flags of a compare of a register with an operand (R135): Carry when the register is not below the operand, Zero when
they are equal, Negative from bit 7 of the difference modulo 256. -/
def compared (s : State) (reg m : Byte) : State :=
  { s with p := { s.p with
      c := decide (m.toNat ≤ reg.toNat)
      z := decide (reg.toNat = m.toNat)
      n := decide (128 ≤ (reg.toNat + 256 - m.toNat) % 256) } }

/-- The flags of BIT (R125). -/
def bitTested (s : State) (m : Byte) : State :=
  { s with p := { s.p with z := decide (s.a &&& m = 0), v := m.getLsbD 6, n := m.getLsbD 7 } }

/-- The address of an offset in the stack page (R39). -/
def stackCell (sp : Byte) : Addr := stackBase + wide sp

/-- The instructions that write `A` (R11). -/
def writesA : List Mnemonic := [.lda, .txa, .tya, .pla, .and, .ora, .eor, .adc, .sbc]

/-- The instructions that read `A` (R11). -/
def readsA : List Mnemonic := [.sta, .tax, .tay, .pha, .and, .ora, .eor, .bit, .cmp, .adc, .sbc]

/-- The instructions that write `X` (R12). -/
def writesX : List Mnemonic := [.ldx, .tax, .tsx, .inx, .dex]

/-- The instructions that read `X` by their operation (R12). -/
def readsX : List Mnemonic := [.stx, .txa, .txs, .inx, .dex, .cpx]

/-- The modes that read `X` (R12). -/
def modesX : List Mode := [.zpx, .absx, .indx]

/-- The instructions that write `Y` (R12). -/
def writesY : List Mnemonic := [.ldy, .tay, .iny, .dey]

/-- The instructions that read `Y` by their operation (R12). -/
def readsY : List Mnemonic := [.sty, .tya, .iny, .dey, .cpy]

/-- The modes that read `Y` (R12). -/
def modesY : List Mode := [.zpy, .absy, .indy]

/-- The instructions that write `SP` (R13). -/
def writesSP : List Mnemonic := [.txs, .pha, .php, .pla, .plp, .jsr, .rts]

/-- The instructions that put a target into `PC` (R14). -/
def jumps : List Mnemonic := [.jmp, .jsr, .rts]

/-- The flags each instruction writes, by the rows of R16. -/
def flagsOf : Mnemonic → List FlagName
  | .lda | .ldx | .ldy | .tax | .tay | .tsx | .txa | .tya | .pla => [.z, .n]
  | .and | .ora | .eor | .inx | .iny | .dex | .dey | .inc | .dec => [.z, .n]
  | .adc | .sbc | .cmp | .cpx | .cpy => [.c, .z, .n]
  | .bit => [.z, .v, .n]
  | .sec | .clc => [.c]
  | .sei | .cli => [.i]
  | .sed | .cld => [.d]
  | .clv => [.v]
  | .plp => [.c, .z, .i, .d, .b, .u, .v, .n]
  | .sta | .stx | .sty | .txs | .pha | .php | .jsr | .rts | .jmp | .nop => []

/-- What an instruction stores: each address with its byte. The addresses are computed as its meaning computes them (the
effective address, after its bytes are fetched; the stack addresses of a push and of JSR), the bytes as the rules give them
(R83 to R85, R96, R98, R105, R119, R120). -/
def stores (i : Instr) (s : State) : List (Addr × Byte) :=
  match i.mnemonic, i.operand with
  | .sta, .ea m => [((s.consume i.length).effAddr m, s.a)]
  | .stx, .ea m => [((s.consume i.length).effAddr m, s.x)]
  | .sty, .ea m => [((s.consume i.length).effAddr m, s.y)]
  | .inc, .ea m => [((s.consume i.length).effAddr m, rd s m + 1)]
  | .dec, .ea m => [((s.consume i.length).effAddr m, rd s m - 1)]
  | .pha, _ => [(stackAddr s.sp, s.a)]
  | .php, _ => [(stackAddr s.sp, s.p.toByte)]
  | .jsr, _ => [(stackAddr s.sp, BitVec.ofNat 8 ((s.pc + 2).toNat / 256)),
      (stackAddr (s.sp - 1), BitVec.ofNat 8 (s.pc + 2).toNat)]
  | _, _ => []

/-- The addresses an instruction stores to. -/
def storesTo (i : Instr) (s : State) : List Addr := (stores i s).map Prod.fst

/-- The instruction under an opcode byte writes a register: with some operand, from some state, the register changes. -/
def writes (reg : State → Byte) (op : Byte) : Prop :=
  ∃ (i : Instr) (s t : State), i.opcode = op ∧ exec i s = .next t ∧ reg t ≠ reg s

/-- The instruction under an opcode byte reads a register: with some operand, from some state, another value in the register
leaves neither the same state nor the same state but for that value. -/
def reads (put : State → Byte → State) (op : Byte) : Prop :=
  ∃ (i : Instr) (s t : State) (v : Byte), i.opcode = op ∧ exec i s = .next t ∧
    exec i (put s v) ≠ .next t ∧ exec i (put s v) ≠ .next (put t v)

/-- The bit offset of each flag in the packed byte (R15). -/
def flagBit : FlagName → Nat
  | .c => 0
  | .z => 1
  | .i => 2
  | .d => 3
  | .b => 4
  | .u => 5
  | .v => 6
  | .n => 7

/-- The page-cross cycle of an instruction, for the rows of R60 marked `+p`. -/
def rowPenalty (row : Row) (i : Instr) (s : State) : Nat :=
  match row.pagePenalty, i.operand with
  | true, .ea m => penalty s m
  | _, _ => 0

/-- The 154 unsupported opcode bytes, in the order of R61. -/
def unsupported : List Byte :=
  [0x00, 0x02, 0x03, 0x04, 0x06, 0x07, 0x0A, 0x0B, 0x0C, 0x0E, 0x0F, 0x10, 0x12, 0x13, 0x14, 0x16, 0x17, 0x1A, 0x1B, 0x1C, 0x1E, 0x1F,
   0x22, 0x23, 0x26, 0x27, 0x2A, 0x2B, 0x2E, 0x2F, 0x30, 0x32, 0x33, 0x34, 0x36, 0x37, 0x3A, 0x3B, 0x3C, 0x3E, 0x3F, 0x40, 0x42, 0x43,
   0x44, 0x46, 0x47, 0x4A, 0x4B, 0x4E, 0x4F, 0x50, 0x52, 0x53, 0x54, 0x56, 0x57, 0x5A, 0x5B, 0x5C, 0x5E, 0x5F, 0x61, 0x62, 0x63, 0x64,
   0x65, 0x66, 0x67, 0x6A, 0x6B, 0x6D, 0x6E, 0x6F, 0x70, 0x71, 0x72, 0x73, 0x74, 0x75, 0x76, 0x77, 0x79, 0x7A, 0x7B, 0x7C, 0x7D, 0x7E,
   0x7F, 0x80, 0x82, 0x83, 0x87, 0x89, 0x8B, 0x8F, 0x90, 0x92, 0x93, 0x97, 0x9B, 0x9C, 0x9E, 0x9F, 0xA3, 0xA7, 0xAB, 0xAF, 0xB0, 0xB2,
   0xB3, 0xB7, 0xBB, 0xBF, 0xC1, 0xC2, 0xC3, 0xC7, 0xCB, 0xCF, 0xD0, 0xD1, 0xD2, 0xD3, 0xD4, 0xD5, 0xD7, 0xD9, 0xDA, 0xDB, 0xDC, 0xDD,
   0xDF, 0xE1, 0xE2, 0xE3, 0xE5, 0xE7, 0xEB, 0xED, 0xEF, 0xF0, 0xF1, 0xF2, 0xF3, 0xF4, 0xF5, 0xF7, 0xF9, 0xFA, 0xFB, 0xFC, 0xFD, 0xFF]

/-- The three bytes at `PC`, in ascending address order, modulo 65536 (R50). -/
def threeBytes (s : State) : List Byte := [s.byteAt s.pc, s.byteAt (s.pc + 1), s.byteAt (s.pc + 2)]

end Sys2Proof.Claims

/-! ### Encoding -/

/-- Tier 3. Decoding the encoding of any instruction, whatever bytes follow it, gives the instruction with every operand at
its value, and leaves what follows (R50, R51, R53, R60). -/
def Obligations.DecodeOfEncodeIsTheInstruction : Prop :=
  ∀ (i : Instr) (rest : List Byte), i.wf = true → decode (encode i ++ rest) = .ok i rest

/-- Tier 2. Every byte string that decodes is the encoding of what it decodes to, followed by the bytes left over: no two
spellings of an instruction, no byte outside the table (R52, R60, R62). -/
def Obligations.EncodeOfDecodeIsTheBytes : Prop :=
  ∀ (bs : List Byte) (i : Instr) (rest : List Byte), decode bs = .ok i rest → bs = encode i ++ rest

/-- Tier 2. R51: the opcode byte alone fixes the length, the table row's mode gives it, and an unsupported byte is refused
whatever follows it. -/
def Obligations.LengthIsFixedByTheOpcode : Prop :=
  (∀ (op : Byte) (tail rest : List Byte) (i : Instr), decode (op :: tail) = .ok i rest →
    ∃ row, lookup op = some row ∧ i.length = row.mode.length ∧ fetchLength op = i.length ∧
      (op :: tail).length = i.length + rest.length) ∧
  (∀ op : Byte, lookup op = none → ∀ tail : List Byte, decode (op :: tail) = .error (.unsupportedOpcode op))

/-- Tier 1. No two rows of the table share an opcode byte, there are 102 of them, and the bytes with no row are exactly the
154 of R61 (R52, R60, R61). -/
def Obligations.TableKeysAreDistinctAndTheRestUnsupported : Prop :=
  (instrTable.map Row.opcode).Nodup ∧ instrTable.length = 102 ∧
    ∀ op : Byte, lookup op = none ↔ op ∈ Claims.unsupported

/-- Tier 1. One instruction of each family, its bytes written out from the encoding line of its rule. -/
def Obligations.WordsOfEachFamilyDecode : Prop :=
  decode [0xA9, 0x84] = .ok (.ldaImm 0x84) [] ∧
  decode [0xBE, 0x34, 0x12] = .ok (.ldxAbsy 0x1234) [] ∧
  decode [0x91, 0x40] = .ok (.staIndy 0x40) [] ∧
  decode [0x96, 0xF0] = .ok (.stxZpy 0xF0) [] ∧
  decode [0xBA] = .ok .tsx [] ∧
  decode [0x28] = .ok .plp [] ∧
  decode [0x20, 0x12, 0x13] = .ok (.jsr 0x1312) [] ∧
  decode [0x6C, 0xFF, 0x10] = .ok (.jmpInd 0x10FF) [] ∧
  decode [0x59, 0xFF, 0x12] = .ok (.eorAbsy 0x12FF) [] ∧
  decode [0xDE, 0xFF, 0x12] = .ok (.decAbsx 0x12FF) [] ∧
  decode [0x2C, 0x00, 0x30] = .ok (.bitAbs 0x3000) [] ∧
  decode [0xF8] = .ok .sed [] ∧
  decode [0xEC, 0x00, 0x30] = .ok (.cpxAbs 0x3000) [] ∧
  decode [0xE9, 0x08] = .ok (.sbcImm 0x08) []

/-! ### The step, the fault, reset -/

/-- Tier 1. In a run that goes on, when the bytes at `PC` decode to an instruction, the step executes that instruction to
completion (R177). That the step is exactly `exec` of it at that state, because `exec` itself fetches the instruction's
bytes and the step adds nothing around it, is the model's choice (log entry 6). -/
def Obligations.StepRunsTheDecodedInstruction : Prop :=
  ∀ (s : State) (i : Instr) (rest : List Byte), s.Live → decode (Claims.threeBytes s) = .ok i rest → step s = exec i s

/-- Tier 1. With no fault latched and the budget spent the run has ended normally, and the core holds its state. That a step
then answers the same state is the model's choice (log entry 3; R160 says the core holds its state between runs). -/
def Obligations.SpentBudgetHoldsTheCore : Prop :=
  ∀ s : State, s.EndedNormally → step s = .next s

/-- Tier 1. With a fault latched the run is over and the step answers that fault, whatever the budget. That the outcome
comes at the step after the one that latches it is the model's choice (log entry 4). -/
def Obligations.LatchedFaultStopsTheStep : Prop :=
  ∀ (s : State) (f : Fault), s.fault = some f → step s = .fault f

/-- Tier 2. Taking the exception: in a run that goes on, each of the 154 bytes fetched as an opcode latches the fault with
the byte and its address, and changes nothing else but `PC` and `cyc` (R150, R151). The values of `PC` and `cyc` are the
spec's own decision (D17, log entry 5). -/
def Obligations.UnsupportedOpcodeIsTaken : Prop :=
  ∀ s : State, s.Live → s.byteAt s.pc ∈ Claims.unsupported →
    step s = .next { s with
      pc := s.pc + 1
      cyc := s.cyc - 1
      fault := some (.unsupportedOpcode (s.byteAt s.pc) s.pc) }

/-- Tier 2. R152: a step that latches a fault is only ever the fetch of a byte that no row supports, and has no effect but
the fetch and the latch: A, X, Y, SP, the flags and every memory byte are as the instructions before it left them, `PC` is
one past the byte and one cycle is charged, as a fetch does (R35). The values of `PC` and `cyc` in a faulted state are the
spec's decision D17 (log entry 5). -/
def Obligations.TheFaultIsPrecise : Prop :=
  ∀ s t : State, step s = .next t → t.fault ≠ none →
    s.byteAt s.pc ∈ Claims.unsupported ∧
    t.a = s.a ∧ t.x = s.x ∧ t.y = s.y ∧ t.sp = s.sp ∧ t.p = s.p ∧ t.mem = s.mem ∧
    t.pc = s.pc + 1 ∧ t.cyc = s.cyc - 1

/-- Tier 1. What reset leaves: every piece of core state but `cyc` at the value of R23, every memory byte 0x00, from any
state; and the model's reset state is such a state (R23, R170). The values of `PC` and `SP` are the spec's decisions D5 and
D7 (log entry 8), the memory's is D22 (log entry 7), the cleared latch D18 (log entry 18); `cyc` at reset is the model's
choice (log entry 2). -/
def Obligations.ResetLeavesTheResetValues : Prop :=
  (∀ s : State, s.hostReset.pc = 0xFFFC ∧ s.hostReset.sp = 0xFF ∧ s.hostReset.a = 0 ∧ s.hostReset.x = 0 ∧
    s.hostReset.y = 0 ∧ s.hostReset.p.toByte = 0 ∧ s.hostReset.fault = none ∧ s.hostReset.cyc = s.cyc ∧
    ∀ addr, s.hostReset.byteAt addr = 0) ∧
  State.reset.hostReset = State.reset

/-- Tier 1. Both invariants hold of the reset state: memory and latch (R21, R23, R31), and the bound on the overshoot (R20), the
latter by the model's choice of `cyc` at reset (log entry 2). -/
def Obligations.InvariantHoldsAtReset : Prop := State.reset.Inv ∧ -6 ≤ State.reset.cyc

/-- Tier 3. From every state that meets the invariant (memory in canonical form, a truthful latch), a step that answers a
next state gives one that meets it: no instruction and no fault breaks it (R21, R31, R150, R151). -/
def Obligations.StepKeepsTheInvariant : Prop :=
  ∀ s t : State, s.Inv → step s = .next t → t.Inv

/-! ### Flags, bus primitives, stack, addressing modes -/

/-- Tier 1. R18: SetZN assigns Zero and Negative from the 8-bit result, touches no other flag, and the order of the two does
not matter. -/
def Obligations.SetZNAssignsZeroAndNegative : Prop :=
  (∀ (p : Flags) (v : Byte), p.setZN v = { p with z := decide (v.toNat = 0), n := decide (128 ≤ v.toNat) }) ∧
  (∀ (p : Flags) (b b' : Bool), (p.set .z b).set .n b' = (p.set .n b').set .z b)

/-- Tier 1. SetCarryIfOverflow sets Carry when the sum exceeds 0xFF, otherwise leaves it, and touches no other flag (R19). -/
def Obligations.CarryIsSetAndNeverCleared : Prop :=
  ∀ (p : Flags) (sum : Nat),
    (0xFF < sum → p.setCarryIfOverflow sum = { p with c := true }) ∧
    (sum ≤ 0xFF → p.setCarryIfOverflow sum = p)

/-- Tier 2. The packed byte holds flag i at bit i; unpacking sets every flag from its bit; the two are inverse, for all 256
bytes and all flags (R15). -/
def Obligations.FlagBytePacksAndUnpacks : Prop :=
  (∀ p : Flags, p.toByte.getLsbD 0 = p.c ∧ p.toByte.getLsbD 1 = p.z ∧ p.toByte.getLsbD 2 = p.i ∧
    p.toByte.getLsbD 3 = p.d ∧ p.toByte.getLsbD 4 = p.b ∧ p.toByte.getLsbD 5 = p.u ∧ p.toByte.getLsbD 6 = p.v ∧
    p.toByte.getLsbD 7 = p.n) ∧
  (∀ p : Flags, Flags.fromByte p.toByte = p) ∧
  (∀ b : Byte, (Flags.fromByte b).toByte = b)

/-- Tier 2. R33, R34: a read gives the byte for one cycle and changes no other state; a write stores the byte for one cycle
and changes no other state, so in a memory of canonical form the address reads as the byte and every other as before. -/
def Obligations.BusReadAndBusWrite : Prop :=
  (∀ (s : State) (addr : Addr), s.memRead addr = (s.mem.read addr.toNat, { s with cyc := s.cyc - 1 })) ∧
  (∀ (s : State) (addr : Addr) (v : Byte),
    { s.memWrite addr v with mem := s.mem } = { s with cyc := s.cyc - 1 } ∧
    (s.mem.wf = true → (s.memWrite addr v).byteAt addr = v) ∧
    ∀ b, b ≠ addr → (s.memWrite addr v).byteAt b = s.byteAt b)

/-- Tier 1. R35: FetchByte gives the byte at `PC`, advances `PC` by one modulo 65536 and costs one cycle. -/
def Obligations.FetchByteAdvancesThePc : Prop :=
  ∀ s : State, s.fetchByte = (s.byteAt s.pc, { s with pc := s.pc + 1, cyc := s.cyc - 1 })

/-- Tier 1. R40: Push writes at STACK_BASE + SP, then decrements SP modulo 256, for one cycle. -/
def Obligations.PushStoresThenDecrements : Prop :=
  ∀ (s : State) (v : Byte),
    s.push v = { s with mem := s.mem.write (Claims.stackCell s.sp).toNat v, sp := s.sp - 1, cyc := s.cyc - 1 }

/-- Tier 2. Pull increments SP modulo 256, then reads at STACK_BASE + SP, for one cycle; after a Push of v it gives v and
restores SP (R41). -/
def Obligations.PullReadsAndUndoesPush : Prop :=
  (∀ s : State, s.pull = (s.byteAt (Claims.stackCell (s.sp + 1)), { s with sp := s.sp + 1, cyc := s.cyc - 1 })) ∧
  (∀ (s : State) (v : Byte), s.mem.wf = true → (s.push v).pull.1 = v ∧ (s.push v).pull.2.sp = s.sp)

/-- Tier 2. The addressing-mode resolver gives the address of R65 to R72 in either direction, and charges, beside the operand
fetches, the cycles of R76: what a read or a store in that mode costs in all, less the instruction's bytes and the access
itself. The pointers' high bytes at 0x00FF come from 0x0100 by the spec's decision D12 (log entry 11). -/
def Obligations.ModesResolveToTheirAddresses : Prop :=
  ∀ (s : State) (m : EaMode),
    s.resolve .read m = (Claims.ea s m, { s with cyc := s.cyc - ((Claims.readCost s m : Int) - Claims.size m - 1) }) ∧
    s.resolve .write m = (Claims.ea s m, { s with cyc := s.cyc - ((Claims.writeCost m : Int) - Claims.size m - 1) })

/-- Tier 2. A page is crossed exactly when the low byte plus the index carries out; an index of 0 never crosses, and 0xFFFF
plus 1 crosses (R74). -/
def Obligations.PageCrossIsCarryOutOfTheLowByte : Prop :=
  (∀ a b : Addr, pageCrossed a b = decide (a.toNat / 256 ≠ b.toNat / 256)) ∧
  (∀ (base : Addr) (idx : Byte),
    pageCrossed base (base + zext16 idx) = decide (0xFF < base.toNat % 256 + idx.toNat)) ∧
  (∀ base : Addr, pageCrossed base (base + zext16 0) = false) ∧
  pageCrossed 0xFFFF (0xFFFF + zext16 1) = true

/-! ### What each instruction leaves: its whole next state, so its result, its flags, its cost and its frame -/

/-- Tier 2. R80: ldaImm, ldaZp, ldaZpx, ldaAbs, ldaAbsx, ldaAbsy, ldaIndx, ldaIndy. -/
def Obligations.LdaLoadsTheOperand : Prop :=
  ∀ s : State,
    (∀ n : Byte, exec (.ldaImm n) s = .next (Claims.putA (Claims.after s 2 2) n)) ∧
    (∀ n : Byte, exec (.ldaZp n) s = .next (Claims.putA (Claims.afterRead s (.zp n)) (Claims.rd s (.zp n)))) ∧
    (∀ n : Byte, exec (.ldaZpx n) s = .next (Claims.putA (Claims.afterRead s (.zpx n)) (Claims.rd s (.zpx n)))) ∧
    (∀ w : Addr, exec (.ldaAbs w) s = .next (Claims.putA (Claims.afterRead s (.abs w)) (Claims.rd s (.abs w)))) ∧
    (∀ w : Addr, exec (.ldaAbsx w) s = .next (Claims.putA (Claims.afterRead s (.absx w)) (Claims.rd s (.absx w)))) ∧
    (∀ w : Addr, exec (.ldaAbsy w) s = .next (Claims.putA (Claims.afterRead s (.absy w)) (Claims.rd s (.absy w)))) ∧
    (∀ n : Byte, exec (.ldaIndx n) s = .next (Claims.putA (Claims.afterRead s (.indx n)) (Claims.rd s (.indx n)))) ∧
    (∀ n : Byte, exec (.ldaIndy n) s = .next (Claims.putA (Claims.afterRead s (.indy n)) (Claims.rd s (.indy n))))

/-- Tier 2. R81, R82: ldxImm, ldxZp, ldxZpy, ldxAbs, ldxAbsy, ldyImm, ldyZp, ldyZpx, ldyAbs, ldyAbsx. -/
def Obligations.LdxAndLdyLoadTheOperand : Prop :=
  ∀ s : State,
    (∀ n : Byte, exec (.ldxImm n) s = .next (Claims.putX (Claims.after s 2 2) n)) ∧
    (∀ n : Byte, exec (.ldxZp n) s = .next (Claims.putX (Claims.afterRead s (.zp n)) (Claims.rd s (.zp n)))) ∧
    (∀ n : Byte, exec (.ldxZpy n) s = .next (Claims.putX (Claims.afterRead s (.zpy n)) (Claims.rd s (.zpy n)))) ∧
    (∀ w : Addr, exec (.ldxAbs w) s = .next (Claims.putX (Claims.afterRead s (.abs w)) (Claims.rd s (.abs w)))) ∧
    (∀ w : Addr, exec (.ldxAbsy w) s = .next (Claims.putX (Claims.afterRead s (.absy w)) (Claims.rd s (.absy w)))) ∧
    (∀ n : Byte, exec (.ldyImm n) s = .next (Claims.putY (Claims.after s 2 2) n)) ∧
    (∀ n : Byte, exec (.ldyZp n) s = .next (Claims.putY (Claims.afterRead s (.zp n)) (Claims.rd s (.zp n)))) ∧
    (∀ n : Byte, exec (.ldyZpx n) s = .next (Claims.putY (Claims.afterRead s (.zpx n)) (Claims.rd s (.zpx n)))) ∧
    (∀ w : Addr, exec (.ldyAbs w) s = .next (Claims.putY (Claims.afterRead s (.abs w)) (Claims.rd s (.abs w)))) ∧
    (∀ w : Addr, exec (.ldyAbsx w) s = .next (Claims.putY (Claims.afterRead s (.absx w)) (Claims.rd s (.absx w))))

/-- Tier 2. R83, R84, R85: staZp, staZpx, staAbs, staAbsx, staAbsy, staIndx, staIndy, stxZp, stxZpy, stxAbs, styZp, styZpx,
styAbs. -/
def Obligations.StoresWriteTheRegister : Prop :=
  ∀ s : State,
    (∀ n : Byte, exec (.staZp n) s = .next (Claims.stored s (.zp n) s.a)) ∧
    (∀ n : Byte, exec (.staZpx n) s = .next (Claims.stored s (.zpx n) s.a)) ∧
    (∀ w : Addr, exec (.staAbs w) s = .next (Claims.stored s (.abs w) s.a)) ∧
    (∀ w : Addr, exec (.staAbsx w) s = .next (Claims.stored s (.absx w) s.a)) ∧
    (∀ w : Addr, exec (.staAbsy w) s = .next (Claims.stored s (.absy w) s.a)) ∧
    (∀ n : Byte, exec (.staIndx n) s = .next (Claims.stored s (.indx n) s.a)) ∧
    (∀ n : Byte, exec (.staIndy n) s = .next (Claims.stored s (.indy n) s.a)) ∧
    (∀ n : Byte, exec (.stxZp n) s = .next (Claims.stored s (.zp n) s.x)) ∧
    (∀ n : Byte, exec (.stxZpy n) s = .next (Claims.stored s (.zpy n) s.x)) ∧
    (∀ w : Addr, exec (.stxAbs w) s = .next (Claims.stored s (.abs w) s.x)) ∧
    (∀ n : Byte, exec (.styZp n) s = .next (Claims.stored s (.zp n) s.y)) ∧
    (∀ n : Byte, exec (.styZpx n) s = .next (Claims.stored s (.zpx n) s.y)) ∧
    (∀ w : Addr, exec (.styAbs w) s = .next (Claims.stored s (.abs w) s.y))

/-- Tier 2. R90 to R95: tax, tay, txa, tya, tsx, txs; TXS writes no flag. -/
def Obligations.TransfersCopyARegister : Prop :=
  ∀ s : State,
    exec .tax s = .next (Claims.putX (Claims.after s 1 2) s.a) ∧
    exec .tay s = .next (Claims.putY (Claims.after s 1 2) s.a) ∧
    exec .txa s = .next (Claims.putA (Claims.after s 1 2) s.x) ∧
    exec .tya s = .next (Claims.putA (Claims.after s 1 2) s.y) ∧
    exec .tsx s = .next (Claims.putX (Claims.after s 1 2) s.sp) ∧
    exec .txs s = .next { Claims.after s 1 2 with sp := s.x }

/-- Tier 2. R96, R98: pha, php. The byte goes to the stack address, SP goes down by one modulo 256, no flag changes; PHP
pushes the flags as held, with no bit forced (D26, log entry 15). -/
def Obligations.PushInstructionsStoreAndDecrement : Prop :=
  ∀ s : State,
    exec .pha s = .next { Claims.after s 1 3 with
      mem := s.mem.write (Claims.stackCell s.sp).toNat s.a, sp := s.sp - 1 } ∧
    exec .php s = .next { Claims.after s 1 3 with
      mem := s.mem.write (Claims.stackCell s.sp).toNat s.p.toByte, sp := s.sp - 1 }

/-- Tier 2. R97, R99: pla, plp. SP goes up by one modulo 256 and the byte is read there; PLA loads A with Zero and Negative,
PLP assigns all eight flags from the byte's bits. Each costs 3 cycles (PULL_INTERNAL_CYCLES, D9, log entry 10). -/
def Obligations.PullInstructionsReadTheStack : Prop :=
  ∀ s : State,
    exec .pla s = .next (Claims.putA { Claims.after s 1 3 with sp := s.sp + 1 }
      (s.byteAt (Claims.stackCell (s.sp + 1)))) ∧
    exec .plp s = .next { Claims.after s 1 3 with
      sp := s.sp + 1
      p :=
        { c := (s.byteAt (Claims.stackCell (s.sp + 1))).getLsbD 0
          z := (s.byteAt (Claims.stackCell (s.sp + 1))).getLsbD 1
          i := (s.byteAt (Claims.stackCell (s.sp + 1))).getLsbD 2
          d := (s.byteAt (Claims.stackCell (s.sp + 1))).getLsbD 3
          b := (s.byteAt (Claims.stackCell (s.sp + 1))).getLsbD 4
          u := (s.byteAt (Claims.stackCell (s.sp + 1))).getLsbD 5
          v := (s.byteAt (Claims.stackCell (s.sp + 1))).getLsbD 6
          n := (s.byteAt (Claims.stackCell (s.sp + 1))).getLsbD 7 } }

/-- Tier 2. R105: jsr. The address of its own third byte is pushed, high byte at SP, low byte one lower, SP goes down by two
modulo 256, `PC` is the target; 6 cycles. The byte order is the spec's decision D15, the total D11 (log entries 13, 14). -/
def Obligations.JsrPushesTheReturnAddress : Prop :=
  ∀ (s : State) (w : Addr),
    exec (.jsr w) s = .next { s with
      mem := (s.mem.write (Claims.stackCell s.sp).toNat (BitVec.ofNat 8 ((s.pc + 2).toNat / 256))).write
        (Claims.stackCell (s.sp - 1)).toNat (BitVec.ofNat 8 (s.pc + 2).toNat)
      sp := s.sp - 2
      pc := w
      cyc := s.cyc - 6 }

/-- Tier 2. R106: rts. The low byte is pulled, then the high byte, `PC` is the word plus one modulo 65536; 6 cycles. The
internal cycles are the spec's decision D11 (log entry 13). -/
def Obligations.RtsReturnsPastThePulledAddress : Prop :=
  ∀ s : State,
    exec .rts s = .next { s with
      sp := s.sp + 2
      pc := word (s.byteAt (Claims.stackCell (s.sp + 2))) (s.byteAt (Claims.stackCell (s.sp + 1))) + 1
      cyc := s.cyc - 6 }

/-- Tier 2. R107, R108: jmpAbs, jmpInd. Only `PC` changes; the indirect target's high byte comes from the pointer plus one
modulo 65536 (D13, log entry 11). -/
def Obligations.JumpsSetThePc : Prop :=
  ∀ (s : State) (w : Addr),
    exec (.jmpAbs w) s = .next { s with pc := w, cyc := s.cyc - 3 } ∧
    exec (.jmpInd w) s = .next { s with pc := Claims.wordAt s w, cyc := s.cyc - 5 }

/-- Tier 2. R110: andImm, andZp, andZpx, andAbs, andAbsx, andAbsy, andIndx, andIndy. -/
def Obligations.AndCombinesWithTheAccumulator : Prop :=
  ∀ s : State,
    (∀ n : Byte, exec (.andImm n) s = .next (Claims.putA (Claims.after s 2 2) (s.a &&& n))) ∧
    (∀ n : Byte, exec (.andZp n) s = .next (Claims.putA (Claims.afterRead s (.zp n)) (s.a &&& Claims.rd s (.zp n)))) ∧
    (∀ n : Byte, exec (.andZpx n) s = .next (Claims.putA (Claims.afterRead s (.zpx n)) (s.a &&& Claims.rd s (.zpx n)))) ∧
    (∀ w : Addr, exec (.andAbs w) s = .next (Claims.putA (Claims.afterRead s (.abs w)) (s.a &&& Claims.rd s (.abs w)))) ∧
    (∀ w : Addr, exec (.andAbsx w) s = .next (Claims.putA (Claims.afterRead s (.absx w)) (s.a &&& Claims.rd s (.absx w)))) ∧
    (∀ w : Addr, exec (.andAbsy w) s = .next (Claims.putA (Claims.afterRead s (.absy w)) (s.a &&& Claims.rd s (.absy w)))) ∧
    (∀ n : Byte, exec (.andIndx n) s = .next (Claims.putA (Claims.afterRead s (.indx n)) (s.a &&& Claims.rd s (.indx n)))) ∧
    (∀ n : Byte, exec (.andIndy n) s = .next (Claims.putA (Claims.afterRead s (.indy n)) (s.a &&& Claims.rd s (.indy n))))

/-- Tier 2. R111: oraImm, oraZp, oraZpx, oraAbs, oraAbsx, oraAbsy, oraIndx, oraIndy. -/
def Obligations.OraCombinesWithTheAccumulator : Prop :=
  ∀ s : State,
    (∀ n : Byte, exec (.oraImm n) s = .next (Claims.putA (Claims.after s 2 2) (s.a ||| n))) ∧
    (∀ n : Byte, exec (.oraZp n) s = .next (Claims.putA (Claims.afterRead s (.zp n)) (s.a ||| Claims.rd s (.zp n)))) ∧
    (∀ n : Byte, exec (.oraZpx n) s = .next (Claims.putA (Claims.afterRead s (.zpx n)) (s.a ||| Claims.rd s (.zpx n)))) ∧
    (∀ w : Addr, exec (.oraAbs w) s = .next (Claims.putA (Claims.afterRead s (.abs w)) (s.a ||| Claims.rd s (.abs w)))) ∧
    (∀ w : Addr, exec (.oraAbsx w) s = .next (Claims.putA (Claims.afterRead s (.absx w)) (s.a ||| Claims.rd s (.absx w)))) ∧
    (∀ w : Addr, exec (.oraAbsy w) s = .next (Claims.putA (Claims.afterRead s (.absy w)) (s.a ||| Claims.rd s (.absy w)))) ∧
    (∀ n : Byte, exec (.oraIndx n) s = .next (Claims.putA (Claims.afterRead s (.indx n)) (s.a ||| Claims.rd s (.indx n)))) ∧
    (∀ n : Byte, exec (.oraIndy n) s = .next (Claims.putA (Claims.afterRead s (.indy n)) (s.a ||| Claims.rd s (.indy n))))

/-- Tier 2. R112: eorImm, eorZp, eorZpx, eorAbs, eorAbsx, eorAbsy, eorIndx, eorIndy. -/
def Obligations.EorCombinesWithTheAccumulator : Prop :=
  ∀ s : State,
    (∀ n : Byte, exec (.eorImm n) s = .next (Claims.putA (Claims.after s 2 2) (s.a ^^^ n))) ∧
    (∀ n : Byte, exec (.eorZp n) s = .next (Claims.putA (Claims.afterRead s (.zp n)) (s.a ^^^ Claims.rd s (.zp n)))) ∧
    (∀ n : Byte, exec (.eorZpx n) s = .next (Claims.putA (Claims.afterRead s (.zpx n)) (s.a ^^^ Claims.rd s (.zpx n)))) ∧
    (∀ w : Addr, exec (.eorAbs w) s = .next (Claims.putA (Claims.afterRead s (.abs w)) (s.a ^^^ Claims.rd s (.abs w)))) ∧
    (∀ w : Addr, exec (.eorAbsx w) s = .next (Claims.putA (Claims.afterRead s (.absx w)) (s.a ^^^ Claims.rd s (.absx w)))) ∧
    (∀ w : Addr, exec (.eorAbsy w) s = .next (Claims.putA (Claims.afterRead s (.absy w)) (s.a ^^^ Claims.rd s (.absy w)))) ∧
    (∀ n : Byte, exec (.eorIndx n) s = .next (Claims.putA (Claims.afterRead s (.indx n)) (s.a ^^^ Claims.rd s (.indx n)))) ∧
    (∀ n : Byte, exec (.eorIndy n) s = .next (Claims.putA (Claims.afterRead s (.indy n)) (s.a ^^^ Claims.rd s (.indy n))))

/-- Tier 2. R115 to R118: inx, iny, dex, dey, modulo 256. -/
def Obligations.RegistersCountModulo256 : Prop :=
  ∀ s : State,
    exec .inx s = .next (Claims.putX (Claims.after s 1 2) (BitVec.ofNat 8 (s.x.toNat + 1))) ∧
    exec .iny s = .next (Claims.putY (Claims.after s 1 2) (BitVec.ofNat 8 (s.y.toNat + 1))) ∧
    exec .dex s = .next (Claims.putX (Claims.after s 1 2) (BitVec.ofNat 8 (s.x.toNat + 255))) ∧
    exec .dey s = .next (Claims.putY (Claims.after s 1 2) (BitVec.ofNat 8 (s.y.toNat + 255)))

/-- Tier 2. R119, R120: incZp, incZpx, incAbs, incAbsx, decZp, decZpx, decAbs, decAbsx. The totals 5, 6, 6, 7 are the spec's
decision D10 (log entry 13). -/
def Obligations.IncAndDecReplaceAByteOfMemory : Prop :=
  ∀ s : State,
    (∀ n : Byte, exec (.incZp n) s = .next (Claims.modified s (.zp n) (Claims.rd s (.zp n) + 1))) ∧
    (∀ n : Byte, exec (.incZpx n) s = .next (Claims.modified s (.zpx n) (Claims.rd s (.zpx n) + 1))) ∧
    (∀ w : Addr, exec (.incAbs w) s = .next (Claims.modified s (.abs w) (Claims.rd s (.abs w) + 1))) ∧
    (∀ w : Addr, exec (.incAbsx w) s = .next (Claims.modified s (.absx w) (Claims.rd s (.absx w) + 1))) ∧
    (∀ n : Byte, exec (.decZp n) s = .next (Claims.modified s (.zp n) (Claims.rd s (.zp n) - 1))) ∧
    (∀ n : Byte, exec (.decZpx n) s = .next (Claims.modified s (.zpx n) (Claims.rd s (.zpx n) - 1))) ∧
    (∀ w : Addr, exec (.decAbs w) s = .next (Claims.modified s (.abs w) (Claims.rd s (.abs w) - 1))) ∧
    (∀ w : Addr, exec (.decAbsx w) s = .next (Claims.modified s (.absx w) (Claims.rd s (.absx w) - 1)))

/-- Tier 2. R125: bitZp, bitAbs. -/
def Obligations.BitTestsTheOperand : Prop :=
  ∀ s : State,
    (∀ n : Byte, exec (.bitZp n) s = .next (Claims.bitTested (Claims.afterRead s (.zp n)) (Claims.rd s (.zp n)))) ∧
    (∀ w : Addr, exec (.bitAbs w) s = .next (Claims.bitTested (Claims.afterRead s (.abs w)) (Claims.rd s (.abs w))))

/-- Tier 2. R126 to R133: clc, sec, cli, sei, clv, cld, sed write their one flag, nop none; 2 cycles each (D8, log entry 13). -/
def Obligations.FlagInstructionsWriteOneFlag : Prop :=
  ∀ s : State,
    exec .clc s = .next { Claims.after s 1 2 with p := { s.p with c := false } } ∧
    exec .sec s = .next { Claims.after s 1 2 with p := { s.p with c := true } } ∧
    exec .cli s = .next { Claims.after s 1 2 with p := { s.p with i := false } } ∧
    exec .sei s = .next { Claims.after s 1 2 with p := { s.p with i := true } } ∧
    exec .clv s = .next { Claims.after s 1 2 with p := { s.p with v := false } } ∧
    exec .cld s = .next { Claims.after s 1 2 with p := { s.p with d := false } } ∧
    exec .sed s = .next { Claims.after s 1 2 with p := { s.p with d := true } } ∧
    exec .nop s = .next (Claims.after s 1 2)

/-- Tier 2. R135 to R137: cmpImm, cmpZp, cmpAbs, cpxImm, cpxZp, cpxAbs, cpyImm, cpyZp, cpyAbs. Carry, Zero and Negative are
assigned (D16, log entry 15). -/
def Obligations.ComparesAssignThreeFlags : Prop :=
  ∀ s : State,
    (∀ n : Byte, exec (.cmpImm n) s = .next (Claims.compared (Claims.after s 2 2) s.a n)) ∧
    (∀ n : Byte, exec (.cmpZp n) s = .next (Claims.compared (Claims.afterRead s (.zp n)) s.a (Claims.rd s (.zp n)))) ∧
    (∀ w : Addr, exec (.cmpAbs w) s = .next (Claims.compared (Claims.afterRead s (.abs w)) s.a (Claims.rd s (.abs w)))) ∧
    (∀ n : Byte, exec (.cpxImm n) s = .next (Claims.compared (Claims.after s 2 2) s.x n)) ∧
    (∀ n : Byte, exec (.cpxZp n) s = .next (Claims.compared (Claims.afterRead s (.zp n)) s.x (Claims.rd s (.zp n)))) ∧
    (∀ w : Addr, exec (.cpxAbs w) s = .next (Claims.compared (Claims.afterRead s (.abs w)) s.x (Claims.rd s (.abs w)))) ∧
    (∀ n : Byte, exec (.cpyImm n) s = .next (Claims.compared (Claims.after s 2 2) s.y n)) ∧
    (∀ n : Byte, exec (.cpyZp n) s = .next (Claims.compared (Claims.afterRead s (.zp n)) s.y (Claims.rd s (.zp n)))) ∧
    (∀ w : Addr, exec (.cpyAbs w) s = .next (Claims.compared (Claims.afterRead s (.abs w)) s.y (Claims.rd s (.abs w))))

/-- Tier 2. R140: adcImm. The sum of A, the operand and Carry modulo 256; Carry set by a sum over 0xFF and otherwise kept; V
not written and D not read (D27, log entry 15). -/
def Obligations.AdcAddsWithASetOnlyCarry : Prop :=
  ∀ (s : State) (n : Byte) (sum : Nat), sum = s.a.toNat + n.toNat + (if s.p.c then 1 else 0) →
    exec (.adcImm n) s = .next { Claims.after s 2 2 with
      a := BitVec.ofNat 8 sum
      p := { s.p with
        c := s.p.c || decide (255 < sum)
        z := decide (sum % 256 = 0)
        n := decide (128 ≤ sum % 256) } }

/-- Tier 2. R141: sbcImm. A minus the operand minus the complement of Carry, modulo 256; Carry set when no borrow is needed and
otherwise kept; V not written (D27, log entry 15). -/
def Obligations.SbcSubtractsWithASetOnlyCarry : Prop :=
  ∀ (s : State) (n : Byte) (take : Nat), take = n.toNat + (if s.p.c then 0 else 1) →
    exec (.sbcImm n) s = .next { Claims.after s 2 2 with
      a := BitVec.ofNat 8 (s.a.toNat + 256 - take)
      p := { s.p with
        c := s.p.c || decide (take ≤ s.a.toNat)
        z := decide ((s.a.toNat + 256 - take) % 256 = 0)
        n := decide (128 ≤ (s.a.toNat + 256 - take) % 256) } }

/-! ### Whole-machine rules: who writes what, who reads what -/

/-- Tier 2. R11: the listed instructions write A, in every row of the table that they have, and no other instruction does; the
listed instructions read A, in every row, and no other does: with another value in A every other instruction leaves the same
state but for A, which it writes alike or leaves alone. A is 0 after reset. -/
def Obligations.AccumulatorIsWrittenAndReadAsListed : Prop :=
  (∀ i : Instr, i.mnemonic ∈ Claims.writesA → Claims.writes State.a i.opcode) ∧
  (∀ (i : Instr) (s t : State), i.mnemonic ∉ Claims.writesA → exec i s = .next t → t.a = s.a) ∧
  (∀ i : Instr, i.mnemonic ∈ Claims.readsA → Claims.reads State.setA i.opcode) ∧
  (∀ (i : Instr) (s t : State) (v : Byte), i.mnemonic ∉ Claims.readsA → exec i s = .next t →
    exec i { s with a := v } = .next { t with a := if i.mnemonic ∈ Claims.writesA then t.a else v }) ∧
  State.reset.a = 0

/-- Tier 2. R12: the listed instructions write X and Y, in every row of the table that they have, and no other instruction
does; the listed instructions and every row in the listed modes read them, and no other does, in the sense of the statement
on A. X and Y are 0 after reset. -/
def Obligations.IndexRegistersAreWrittenAndReadAsListed : Prop :=
  (∀ i : Instr, (i.mnemonic ∈ Claims.writesX → Claims.writes State.x i.opcode) ∧
    (i.mnemonic ∈ Claims.writesY → Claims.writes State.y i.opcode)) ∧
  (∀ (i : Instr) (s t : State), exec i s = .next t →
    (i.mnemonic ∉ Claims.writesX → t.x = s.x) ∧ (i.mnemonic ∉ Claims.writesY → t.y = s.y)) ∧
  (∀ i : Instr, i.mnemonic ∈ Claims.readsX ∨ i.operand.mode ∈ Claims.modesX → Claims.reads State.setX i.opcode) ∧
  (∀ i : Instr, i.mnemonic ∈ Claims.readsY ∨ i.operand.mode ∈ Claims.modesY → Claims.reads State.setY i.opcode) ∧
  (∀ (i : Instr) (s t : State) (v : Byte), i.mnemonic ∉ Claims.readsX → i.operand.mode ∉ Claims.modesX →
    exec i s = .next t →
    exec i { s with x := v } = .next { t with x := if i.mnemonic ∈ Claims.writesX then t.x else v }) ∧
  (∀ (i : Instr) (s t : State) (v : Byte), i.mnemonic ∉ Claims.readsY → i.operand.mode ∉ Claims.modesY →
    exec i s = .next t →
    exec i { s with y := v } = .next { t with y := if i.mnemonic ∈ Claims.writesY then t.y else v }) ∧
  State.reset.x = 0 ∧ State.reset.y = 0

/-- Tier 2. Only the listed instructions write SP, and only they and TSX read it; every stack address lies in the stack
page, so the upper byte of the address is never touched (R13, R39). The page is the spec's decision D6 (log entry 9). -/
def Obligations.StackPointerIsWrittenAndReadAsListed : Prop :=
  (∀ (i : Instr) (s t : State), i.mnemonic ∉ Claims.writesSP → exec i s = .next t → t.sp = s.sp) ∧
  (∀ (i : Instr) (s t : State) (v : Byte), i.mnemonic ∉ Claims.writesSP → i.mnemonic ≠ .tsx → exec i s = .next t →
    exec i { s with sp := v } = .next { t with sp := v }) ∧
  (∀ sp : Byte, (stackAddr sp).toNat = 0x100 + sp.toNat)

/-- Tier 2. No instruction changes a flag that R16 does not list it against. -/
def Obligations.FlagsAreWrittenOnlyAsListed : Prop :=
  ∀ (i : Instr) (s t : State) (f : FlagName), exec i s = .next t → f ∉ Claims.flagsOf i.mnemonic → t.p.get f = s.p.get f

/-- Tier 2. Only PHP reads the flags, and ADC and SBC read Carry: with another value in any one flag, every other instruction
leaves the same state, control flow included, but for that flag, which it writes alike or leaves alone (R16, R17). -/
def Obligations.FlagsAreReadOnlyAsListed : Prop :=
  ∀ (i : Instr) (s t : State) (f : FlagName) (on : Bool), i.mnemonic ≠ .php →
    (f = .c → i.mnemonic ≠ .adc ∧ i.mnemonic ≠ .sbc) → exec i s = .next t →
    exec i { s with p := s.p.set f on } =
      .next { t with p := t.p.set f (if f ∈ Claims.flagsOf i.mnemonic then t.p.get f else on) }

/-- Tier 2. Every instruction but JMP, JSR and RTS leaves `PC` past its own bytes, modulo 65536; no instruction but JSR reads
`PC` as data: started elsewhere, it leaves the same state but for `PC` (R14). -/
def Obligations.ProgramCounterPassesTheInstruction : Prop :=
  (∀ (i : Instr) (s t : State), i.mnemonic ∉ Claims.jumps → exec i s = .next t →
    t.pc.toNat = (s.pc.toNat + (encode i).length) % 65536) ∧
  (∀ (i : Instr) (s t : State) (v : Addr), i.mnemonic ≠ .jsr → exec i s = .next t →
    exec i { s with pc := v } = .next { t with pc := if i.mnemonic ∈ Claims.jumps then t.pc else t.pc + (v - s.pc) })

/-- Tier 2. The frame of memory: every byte outside the addresses an instruction stores to reads as before; the others store
nothing, and then all of memory reads as before (R31, R44, R83, R96, R98, R105, R119). -/
def Obligations.OnlyStoresChangeMemory : Prop :=
  ∀ (i : Instr) (s t : State), exec i s = .next t → ∀ addr, addr ∉ Claims.storesTo i s → t.byteAt addr = s.byteAt addr

/-- Tier 2. No instruction reads the budget or the latch: it charges the same from any budget, and leaves the latch alone
(R20, R21, R150, R159). -/
def Obligations.BudgetAndLatchAreInvisible : Prop :=
  ∀ (i : Instr) (s t : State) (c : Int) (f : Option Fault), exec i s = .next t →
    t.fault = s.fault ∧
    exec i { s with cyc := c } = .next { t with cyc := t.cyc + (c - s.cyc) } ∧
    exec i { s with fault := f } = .next { t with fault := f }

/-- Tier 2. Every instruction charges exactly the total of its row of the Instruction Table, and one more on a page cross where
the row is marked `+p` (R60, R74, R182). -/
def Obligations.CostIsTheTableTotal : Prop :=
  ∀ (i : Instr) (s t : State) (row : Row), lookup i.opcode = some row → exec i s = .next t →
    s.cyc - t.cyc = row.cycles + Claims.rowPenalty row i s

/-- Tier 2. Every instruction costs at least 2 and at most 7 cycles (R20, R182). -/
def Obligations.CostLiesBetweenTwoAndSeven : Prop :=
  ∀ (i : Instr) (s t : State), exec i s = .next t → 2 ≤ s.cyc - t.cyc ∧ s.cyc - t.cyc ≤ 7

/-! ### Instructions together -/

/-- Tier 2. A JSR and a following RTS, with no stack access between: `PC` is the byte after the JSR and SP is as before it,
wherever the stack pointer stands (R105, R106). -/
def Obligations.RtsAfterJsrComesBack : Prop :=
  ∀ (s : State) (w : Addr), s.mem.wf = true →
    ∃ t u, exec (.jsr w) s = .next t ∧ exec .rts t = .next u ∧ t.pc = w ∧ u.pc = s.pc + 3 ∧ u.sp = s.sp ∧
      u.a = s.a ∧ u.x = s.x ∧ u.y = s.y ∧ u.p = s.p

/-- Tier 2. PLP after PHP restores the flags exactly and SP; PLA after PHA restores A and SP (R41, R96 to R99). -/
def Obligations.PullAfterPushRestores : Prop :=
  ∀ s : State, s.mem.wf = true →
    (∃ t u, exec .php s = .next t ∧ exec .plp t = .next u ∧ u.p = s.p ∧ u.sp = s.sp) ∧
    (∃ t u, exec .pha s = .next t ∧ exec .pla t = .next u ∧ u.a = s.a ∧ u.sp = s.sp)

/-- Tier 2. Every byte that an instruction stores, be it a store, a read-modify-write, a push or a JSR, reads as the stored
byte afterwards, and if it stands where `PC` then points the next fetch gives it, with no fence; and `PC` then points past
the instruction's own bytes unless it is a JSR (R14, R49). -/
def Obligations.AStoreIsSeenByTheNextFetch : Prop :=
  ∀ (i : Instr) (s : State) (addr : Addr) (v : Byte), s.mem.wf = true → (addr, v) ∈ Claims.stores i s →
    ∃ t, exec i s = .next t ∧ t.byteAt addr = v ∧ (t.pc = addr → t.fetchByte.1 = v) ∧
      (i.mnemonic ≠ .jsr → t.pc = s.pc + BitVec.ofNat 16 i.length)

/-! ### Runs -/

/-- Tier 2. Every run ends: after Exec with any budget, from any state, the budget is spent or the fault is latched (R178,
R179). That `budget` turns of the loop are enough is the model's inference (log entry 19), and this statement says so too:
going round the loop more often changes nothing, so this state is the run's final state. -/
def Obligations.EveryRunEnds : Prop :=
  ∀ (s : State) (budget : Int),
    (s.hostExec budget).Ended ∧
    ∀ n, budget.toNat ≤ n → runLoop n (s.startRun budget) = s.hostExec budget

/-- Tier 2. A run of a positive budget that does not fault ends with the budget spent and at most six cycles over (R20, R178). -/
def Obligations.ARunOvershootsByAtMostSix : Prop :=
  ∀ (s : State) (budget : Int), 0 < budget → (s.hostExec budget).fault = none →
    -6 ≤ (s.hostExec budget).cyc ∧ (s.hostExec budget).cyc ≤ 0

/-- Tier 1. A budget of 0 or less runs nothing: the state is unchanged but for `cyc`, which is the budget, and a cleared latch
(R176, R178). -/
def Obligations.NoBudgetRunsNothing : Prop :=
  ∀ (s : State) (budget : Int), budget ≤ 0 → s.hostExec budget = { s with cyc := budget, fault := none }

/-- Tier 2. A run whose final state has the latch set holds in it an unsupported byte and the address it was fetched from, with
`PC` one past it; whatever memory the run started with (R21, R150, R151). The value of `PC` is the spec's decision D17 (log
entry 5). -/
def Obligations.AFaultedRunNamesTheByte : Prop :=
  ∀ (s : State) (budget : Int) (b : Byte) (addr : Addr),
    (s.hostExec budget).fault = some (.unsupportedOpcode b addr) →
    b ∈ Claims.unsupported ∧ (s.hostExec budget).byteAt addr = b ∧ (s.hostExec budget).pc = addr + 1

/-- Tier 1. R25: a host write of A, X, Y, SP or `PC` stores the value masked to the register's width, a host read gives the
current value, and the flag register's set, get, reset, toByte and fromByte act on the flags named and on no other; none
touches anything else. That a register write takes any integer, a negative one in two's complement, is the model's reading
(log entry 20). -/
def Obligations.HostWritesAreMasked : Prop :=
  (∀ (s : State) (v : Int),
    s.hostWriteReg .a v = { s with a := BitVec.ofInt 8 v } ∧
    s.hostWriteReg .x v = { s with x := BitVec.ofInt 8 v } ∧
    s.hostWriteReg .y v = { s with y := BitVec.ofInt 8 v } ∧
    s.hostWriteReg .sp v = { s with sp := BitVec.ofInt 8 v } ∧
    s.hostWritePc v = { s with pc := BitVec.ofInt 16 v } ∧
    (∀ r, ((s.hostWriteReg r v).hostReadReg r).toNat = v % 256) ∧
    ((s.hostWritePc v).hostReadPc.toNat : Int) = v % 65536) ∧
  (∀ s : State, s.hostReadReg .a = s.a ∧ s.hostReadReg .x = s.x ∧ s.hostReadReg .y = s.y ∧ s.hostReadReg .sp = s.sp ∧
    s.hostReadPc = s.pc ∧ ∀ f, s.hostGetFlag f = s.hostFlagByte.getLsbD (Claims.flagBit f)) ∧
  (∀ (s : State) (f : FlagName) (on : Bool),
    { s.hostSetFlag f on with p := s.p } = s ∧
    ∀ g, (s.hostSetFlag f on).hostGetFlag g = if g = f then on else s.hostGetFlag g) ∧
  (∀ s : State, { s.hostResetFlags with p := s.p } = s ∧ ∀ f, s.hostResetFlags.hostGetFlag f = false) ∧
  (∀ (s : State) (b : Byte),
    { s.hostSetFlagByte b with p := s.p } = s ∧
    (s.hostSetFlagByte b).hostFlagByte = b ∧ ∀ f, (s.hostSetFlagByte b).hostGetFlag f = b.getLsbD (Claims.flagBit f))

/-- Tier 3. Every step keeps the bound on the overshoot: from every state whose budget is at least -6, a step that answers a
next state gives one whose budget is at least -6, because a step starts an instruction only on a positive budget and charges
at most seven cycles (R20, R177, R182). The totals are the spec's decisions (log entry 13). -/
def Obligations.StepKeepsTheOvershootBound : Prop :=
  ∀ s t : State, -6 ≤ s.cyc → step s = .next t → -6 ≤ t.cyc
end

