-- ==== Sys2Proof/Laws/Memory.lean ====
section
/-! SUPPORT. The laws of the memory image (spec/20_memory.md R31): a read after a write, and the canonical form, which every
memory operation keeps. -/

namespace Sys2Proof.Machine

theorem Memory.read_consCell (a : Nat) (v : Byte) (m : Memory) (h : Memory.read m a = Memory.unlisted) :
    Memory.read (Memory.consCell a v m) a = v := by
  unfold Memory.consCell
  split
  · simp_all
  · simp [Memory.read]

theorem Memory.read_consCell_other {a b : Nat} (v : Byte) (m : Memory) (h : b ≠ a) :
    Memory.read (Memory.consCell a v m) b = Memory.read m b := by
  unfold Memory.consCell
  split
  · rfl
  · simp [Memory.read, h]

/-- The canonical form from a later address on is one from an earlier address on. -/
theorem Memory.wfFrom_mono {lo lo' : Nat} {m : Memory} (h : lo ≤ lo') (hm : Memory.wfFrom lo' m = true) :
    Memory.wfFrom lo m = true := by
  cases m with
  | nil => rfl
  | cons c rest =>
    simp only [Memory.wfFrom, Bool.and_eq_true, decide_eq_true_eq] at hm ⊢
    exact ⟨⟨⟨by omega, hm.1.1.2⟩, hm.1.2⟩, hm.2⟩

/-- Below where a canonical list starts, every address is unlisted. -/
theorem Memory.read_below {lo a : Nat} {m : Memory} (hm : Memory.wfFrom lo m = true) (h : a < lo) :
    Memory.read m a = Memory.unlisted := by
  induction m generalizing lo with
  | nil => rfl
  | cons c rest ih =>
    simp only [Memory.wfFrom, Bool.and_eq_true, decide_eq_true_eq] at hm
    rw [Memory.read, if_neg (by omega)]
    exact ih hm.2 (by omega)

/-- A read of the address just written gives the byte written. -/
theorem Memory.read_write_same {lo : Nat} {m : Memory} (a : Nat) (v : Byte) (hm : Memory.wfFrom lo m = true) :
    Memory.read (Memory.write m a v) a = v := by
  induction m generalizing lo with
  | nil => exact Memory.read_consCell a v [] rfl
  | cons c rest ih =>
    simp only [Memory.wfFrom, Bool.and_eq_true, decide_eq_true_eq] at hm
    rw [Memory.write]
    split
    · refine Memory.read_consCell a v _ ?_
      rw [Memory.read, if_neg (by omega)]
      exact Memory.read_below hm.2 (by omega)
    · split
      · exact Memory.read_consCell a v _ (Memory.read_below hm.2 (by omega))
      · rw [Memory.read, if_neg (by omega)]
        exact ih hm.2

/-- A write changes no other address, whatever form the list has. -/
theorem Memory.read_write_other {a b : Nat} (v : Byte) (m : Memory) (h : b ≠ a) :
    Memory.read (Memory.write m a v) b = Memory.read m b := by
  induction m with
  | nil => exact Memory.read_consCell_other v [] h
  | cons c rest ih =>
    rw [Memory.write]
    split
    · exact Memory.read_consCell_other v _ h
    · split
      · rw [Memory.read_consCell_other v _ h, Memory.read, if_neg (by omega)]
      · rw [Memory.read, Memory.read, ih]

theorem Memory.wfFrom_consCell {lo a : Nat} (v : Byte) {m : Memory} (h : lo ≤ a) (ha : a < Config.memSize)
    (hm : Memory.wfFrom (a + 1) m = true) : Memory.wfFrom lo (Memory.consCell a v m) = true := by
  unfold Memory.consCell
  split
  · exact Memory.wfFrom_mono (by omega) hm
  · simp_all [Memory.wfFrom]

theorem Memory.wfFrom_write {lo a : Nat} (v : Byte) {m : Memory} (h : lo ≤ a) (ha : a < Config.memSize)
    (hm : Memory.wfFrom lo m = true) : Memory.wfFrom lo (Memory.write m a v) = true := by
  induction m generalizing lo with
  | nil => exact Memory.wfFrom_consCell v h ha rfl
  | cons c rest ih =>
    have hm' := hm
    simp only [Memory.wfFrom, Bool.and_eq_true, decide_eq_true_eq] at hm
    rw [Memory.write]
    split
    · refine Memory.wfFrom_consCell v h ha ?_
      simp only [Memory.wfFrom, Bool.and_eq_true, decide_eq_true_eq]
      exact ⟨⟨⟨by omega, hm.1.1.2⟩, hm.1.2⟩, hm.2⟩
    · split
      · rename_i hab
        exact Memory.wfFrom_consCell v h ha (hab ▸ hm.2)
      · simp only [Memory.wfFrom, Bool.and_eq_true, decide_eq_true_eq]
        exact ⟨hm.1, ih (by omega) hm.2⟩

/-- A write of a byte keeps the canonical form. -/
theorem Memory.wf_write (addr : Addr) (v : Byte) {m : Memory} (hm : m.wf = true) :
    (Memory.write m addr.toNat v).wf = true :=
  Memory.wfFrom_write v (Nat.zero_le _) (by have := addr.isLt; simpa [Config.memSize] using this) hm

/-- Placing an image keeps the canonical form. -/
theorem Memory.wf_writeBytes (addr : Addr) (bs : List Byte) {m : Memory} (hm : m.wf = true) :
    (m.writeBytes addr bs).wf = true := by
  induction bs generalizing m addr with
  | nil => exact hm
  | cons b rest ih => exact ih _ (Memory.wf_write addr b hm)

/-- The reset image is canonical. -/
theorem Memory.wf_reset : State.reset.mem.wf = true := rfl

end Sys2Proof.Machine
end

