-- ==== Sys2Proof/Laws/State.lean ====
section
/-! SUPPORT. One lemma per field per update of the state, so that no proof unfolds a record update. -/

namespace Sys2Proof.Machine

@[simp] theorem State.setPc_pc (s : State) (v : Addr) : (s.setPc v).pc = v := rfl
@[simp] theorem State.setPc_sp (s : State) (v : Addr) : (s.setPc v).sp = s.sp := rfl
@[simp] theorem State.setPc_a (s : State) (v : Addr) : (s.setPc v).a = s.a := rfl
@[simp] theorem State.setPc_x (s : State) (v : Addr) : (s.setPc v).x = s.x := rfl
@[simp] theorem State.setPc_y (s : State) (v : Addr) : (s.setPc v).y = s.y := rfl
@[simp] theorem State.setPc_p (s : State) (v : Addr) : (s.setPc v).p = s.p := rfl
@[simp] theorem State.setPc_cyc (s : State) (v : Addr) : (s.setPc v).cyc = s.cyc := rfl
@[simp] theorem State.setPc_fault (s : State) (v : Addr) : (s.setPc v).fault = s.fault := rfl
@[simp] theorem State.setPc_mem (s : State) (v : Addr) : (s.setPc v).mem = s.mem := rfl

@[simp] theorem State.setSp_pc (s : State) (v : Byte) : (s.setSp v).pc = s.pc := rfl
@[simp] theorem State.setSp_sp (s : State) (v : Byte) : (s.setSp v).sp = v := rfl
@[simp] theorem State.setSp_a (s : State) (v : Byte) : (s.setSp v).a = s.a := rfl
@[simp] theorem State.setSp_x (s : State) (v : Byte) : (s.setSp v).x = s.x := rfl
@[simp] theorem State.setSp_y (s : State) (v : Byte) : (s.setSp v).y = s.y := rfl
@[simp] theorem State.setSp_p (s : State) (v : Byte) : (s.setSp v).p = s.p := rfl
@[simp] theorem State.setSp_cyc (s : State) (v : Byte) : (s.setSp v).cyc = s.cyc := rfl
@[simp] theorem State.setSp_fault (s : State) (v : Byte) : (s.setSp v).fault = s.fault := rfl
@[simp] theorem State.setSp_mem (s : State) (v : Byte) : (s.setSp v).mem = s.mem := rfl

@[simp] theorem State.setA_pc (s : State) (v : Byte) : (s.setA v).pc = s.pc := rfl
@[simp] theorem State.setA_sp (s : State) (v : Byte) : (s.setA v).sp = s.sp := rfl
@[simp] theorem State.setA_a (s : State) (v : Byte) : (s.setA v).a = v := rfl
@[simp] theorem State.setA_x (s : State) (v : Byte) : (s.setA v).x = s.x := rfl
@[simp] theorem State.setA_y (s : State) (v : Byte) : (s.setA v).y = s.y := rfl
@[simp] theorem State.setA_p (s : State) (v : Byte) : (s.setA v).p = s.p := rfl
@[simp] theorem State.setA_cyc (s : State) (v : Byte) : (s.setA v).cyc = s.cyc := rfl
@[simp] theorem State.setA_fault (s : State) (v : Byte) : (s.setA v).fault = s.fault := rfl
@[simp] theorem State.setA_mem (s : State) (v : Byte) : (s.setA v).mem = s.mem := rfl

@[simp] theorem State.setX_pc (s : State) (v : Byte) : (s.setX v).pc = s.pc := rfl
@[simp] theorem State.setX_sp (s : State) (v : Byte) : (s.setX v).sp = s.sp := rfl
@[simp] theorem State.setX_a (s : State) (v : Byte) : (s.setX v).a = s.a := rfl
@[simp] theorem State.setX_x (s : State) (v : Byte) : (s.setX v).x = v := rfl
@[simp] theorem State.setX_y (s : State) (v : Byte) : (s.setX v).y = s.y := rfl
@[simp] theorem State.setX_p (s : State) (v : Byte) : (s.setX v).p = s.p := rfl
@[simp] theorem State.setX_cyc (s : State) (v : Byte) : (s.setX v).cyc = s.cyc := rfl
@[simp] theorem State.setX_fault (s : State) (v : Byte) : (s.setX v).fault = s.fault := rfl
@[simp] theorem State.setX_mem (s : State) (v : Byte) : (s.setX v).mem = s.mem := rfl

@[simp] theorem State.setY_pc (s : State) (v : Byte) : (s.setY v).pc = s.pc := rfl
@[simp] theorem State.setY_sp (s : State) (v : Byte) : (s.setY v).sp = s.sp := rfl
@[simp] theorem State.setY_a (s : State) (v : Byte) : (s.setY v).a = s.a := rfl
@[simp] theorem State.setY_x (s : State) (v : Byte) : (s.setY v).x = s.x := rfl
@[simp] theorem State.setY_y (s : State) (v : Byte) : (s.setY v).y = v := rfl
@[simp] theorem State.setY_p (s : State) (v : Byte) : (s.setY v).p = s.p := rfl
@[simp] theorem State.setY_cyc (s : State) (v : Byte) : (s.setY v).cyc = s.cyc := rfl
@[simp] theorem State.setY_fault (s : State) (v : Byte) : (s.setY v).fault = s.fault := rfl
@[simp] theorem State.setY_mem (s : State) (v : Byte) : (s.setY v).mem = s.mem := rfl

@[simp] theorem State.setP_pc (s : State) (v : Flags) : (s.setP v).pc = s.pc := rfl
@[simp] theorem State.setP_sp (s : State) (v : Flags) : (s.setP v).sp = s.sp := rfl
@[simp] theorem State.setP_a (s : State) (v : Flags) : (s.setP v).a = s.a := rfl
@[simp] theorem State.setP_x (s : State) (v : Flags) : (s.setP v).x = s.x := rfl
@[simp] theorem State.setP_y (s : State) (v : Flags) : (s.setP v).y = s.y := rfl
@[simp] theorem State.setP_p (s : State) (v : Flags) : (s.setP v).p = v := rfl
@[simp] theorem State.setP_cyc (s : State) (v : Flags) : (s.setP v).cyc = s.cyc := rfl
@[simp] theorem State.setP_fault (s : State) (v : Flags) : (s.setP v).fault = s.fault := rfl
@[simp] theorem State.setP_mem (s : State) (v : Flags) : (s.setP v).mem = s.mem := rfl

@[simp] theorem State.setCyc_pc (s : State) (v : Int) : (s.setCyc v).pc = s.pc := rfl
@[simp] theorem State.setCyc_sp (s : State) (v : Int) : (s.setCyc v).sp = s.sp := rfl
@[simp] theorem State.setCyc_a (s : State) (v : Int) : (s.setCyc v).a = s.a := rfl
@[simp] theorem State.setCyc_x (s : State) (v : Int) : (s.setCyc v).x = s.x := rfl
@[simp] theorem State.setCyc_y (s : State) (v : Int) : (s.setCyc v).y = s.y := rfl
@[simp] theorem State.setCyc_p (s : State) (v : Int) : (s.setCyc v).p = s.p := rfl
@[simp] theorem State.setCyc_cyc (s : State) (v : Int) : (s.setCyc v).cyc = v := rfl
@[simp] theorem State.setCyc_fault (s : State) (v : Int) : (s.setCyc v).fault = s.fault := rfl
@[simp] theorem State.setCyc_mem (s : State) (v : Int) : (s.setCyc v).mem = s.mem := rfl

@[simp] theorem State.setFault_pc (s : State) (v : Option Fault) : (s.setFault v).pc = s.pc := rfl
@[simp] theorem State.setFault_sp (s : State) (v : Option Fault) : (s.setFault v).sp = s.sp := rfl
@[simp] theorem State.setFault_a (s : State) (v : Option Fault) : (s.setFault v).a = s.a := rfl
@[simp] theorem State.setFault_x (s : State) (v : Option Fault) : (s.setFault v).x = s.x := rfl
@[simp] theorem State.setFault_y (s : State) (v : Option Fault) : (s.setFault v).y = s.y := rfl
@[simp] theorem State.setFault_p (s : State) (v : Option Fault) : (s.setFault v).p = s.p := rfl
@[simp] theorem State.setFault_cyc (s : State) (v : Option Fault) : (s.setFault v).cyc = s.cyc := rfl
@[simp] theorem State.setFault_fault (s : State) (v : Option Fault) : (s.setFault v).fault = v := rfl
@[simp] theorem State.setFault_mem (s : State) (v : Option Fault) : (s.setFault v).mem = s.mem := rfl

@[simp] theorem State.setMem_pc (s : State) (v : Memory) : (s.setMem v).pc = s.pc := rfl
@[simp] theorem State.setMem_sp (s : State) (v : Memory) : (s.setMem v).sp = s.sp := rfl
@[simp] theorem State.setMem_a (s : State) (v : Memory) : (s.setMem v).a = s.a := rfl
@[simp] theorem State.setMem_x (s : State) (v : Memory) : (s.setMem v).x = s.x := rfl
@[simp] theorem State.setMem_y (s : State) (v : Memory) : (s.setMem v).y = s.y := rfl
@[simp] theorem State.setMem_p (s : State) (v : Memory) : (s.setMem v).p = s.p := rfl
@[simp] theorem State.setMem_cyc (s : State) (v : Memory) : (s.setMem v).cyc = s.cyc := rfl
@[simp] theorem State.setMem_fault (s : State) (v : Memory) : (s.setMem v).fault = s.fault := rfl
@[simp] theorem State.setMem_mem (s : State) (v : Memory) : (s.setMem v).mem = v := rfl

/-- Two states are equal when their fields are. -/
theorem State.eq_of_fields {s t : State} (hpc : s.pc = t.pc) (hsp : s.sp = t.sp) (ha : s.a = t.a) (hx : s.x = t.x)
    (hy : s.y = t.y) (hp : s.p = t.p) (hcyc : s.cyc = t.cyc) (hfault : s.fault = t.fault) (hmem : s.mem = t.mem) :
    s = t := by
  cases s; cases t; simp_all

end Sys2Proof.Machine
end

