-- ==== Sys2Proof/Laws/Ops.lean ====
section
/-! SUPPORT. What each shared operation does, field by field: the provers cite these and do not unfold the operations. -/

namespace Sys2Proof.Machine

/-! ### Tick -/

@[simp] theorem State.tick_pc (s : State) (n : Nat) : (s.tick n).pc = s.pc := rfl
@[simp] theorem State.tick_sp (s : State) (n : Nat) : (s.tick n).sp = s.sp := rfl
@[simp] theorem State.tick_a (s : State) (n : Nat) : (s.tick n).a = s.a := rfl
@[simp] theorem State.tick_x (s : State) (n : Nat) : (s.tick n).x = s.x := rfl
@[simp] theorem State.tick_y (s : State) (n : Nat) : (s.tick n).y = s.y := rfl
@[simp] theorem State.tick_p (s : State) (n : Nat) : (s.tick n).p = s.p := rfl
@[simp] theorem State.tick_cyc (s : State) (n : Nat) : (s.tick n).cyc = s.cyc - n := rfl
@[simp] theorem State.tick_fault (s : State) (n : Nat) : (s.tick n).fault = s.fault := rfl
@[simp] theorem State.tick_mem (s : State) (n : Nat) : (s.tick n).mem = s.mem := rfl

/-- Charges add up. -/
@[simp] theorem State.tick_tick (s : State) (m n : Nat) : (s.tick m).tick n = s.tick (m + n) := by
  apply State.eq_of_fields <;> simp; omega

/-! ### Reads -/

/-- The byte at an address depends on the memory image alone. -/
theorem State.byteAt_congr {s t : State} (h : s.mem = t.mem) (addr : Addr) : s.byteAt addr = t.byteAt addr := by
  simp [State.byteAt, h]

@[simp] theorem State.tick_byteAt (s : State) (n : Nat) (addr : Addr) : (s.tick n).byteAt addr = s.byteAt addr := rfl
@[simp] theorem State.setPc_byteAt (s : State) (v : Addr) (addr : Addr) : (s.setPc v).byteAt addr = s.byteAt addr := rfl
@[simp] theorem State.setSp_byteAt (s : State) (v : Byte) (addr : Addr) : (s.setSp v).byteAt addr = s.byteAt addr := rfl
@[simp] theorem State.setP_byteAt (s : State) (v : Flags) (addr : Addr) : (s.setP v).byteAt addr = s.byteAt addr := rfl
@[simp] theorem State.setA_byteAt (s : State) (v : Byte) (addr : Addr) : (s.setA v).byteAt addr = s.byteAt addr := rfl
@[simp] theorem State.setX_byteAt (s : State) (v : Byte) (addr : Addr) : (s.setX v).byteAt addr = s.byteAt addr := rfl
@[simp] theorem State.setY_byteAt (s : State) (v : Byte) (addr : Addr) : (s.setY v).byteAt addr = s.byteAt addr := rfl
@[simp] theorem State.setCyc_byteAt (s : State) (v : Int) (addr : Addr) : (s.setCyc v).byteAt addr = s.byteAt addr := rfl
@[simp] theorem State.setFault_byteAt (s : State) (v : Option Fault) (addr : Addr) :
    (s.setFault v).byteAt addr = s.byteAt addr := rfl

@[simp] theorem State.memRead_fst (s : State) (addr : Addr) : (s.memRead addr).1 = s.byteAt addr := rfl
@[simp] theorem State.memRead_snd (s : State) (addr : Addr) : (s.memRead addr).2 = s.tick 1 := rfl

/-- ReadWord with no wrap: the word at `ptr` and `ptr + 1`, for two cycles (R37). -/
@[simp] theorem State.readWord_snd (s : State) (wrap : Bool) (ptr : Addr) : (s.readWord wrap ptr).2 = s.tick 2 := by
  simp [State.readWord]

@[simp] theorem State.readWord_fst (s : State) (ptr : Addr) :
    (s.readWord false ptr).1 = word (s.byteAt (ptr + 1)) (s.byteAt ptr) := rfl

/-- The parameters' values: neither pointer wraps (D12, D13). -/
@[simp] theorem State.readWord_zpPtrWrap (s : State) (ptr : Addr) :
    (s.readWord zpPtrWrap ptr).1 = word (s.byteAt (ptr + 1)) (s.byteAt ptr) := rfl
@[simp] theorem State.readWord_jmpIndPageWrap (s : State) (ptr : Addr) :
    (s.readWord jmpIndPageWrap ptr).1 = word (s.byteAt (ptr + 1)) (s.byteAt ptr) := rfl

/-! ### Writes -/

@[simp] theorem State.memWrite_pc (s : State) (addr : Addr) (v : Byte) : (s.memWrite addr v).pc = s.pc := rfl
@[simp] theorem State.memWrite_sp (s : State) (addr : Addr) (v : Byte) : (s.memWrite addr v).sp = s.sp := rfl
@[simp] theorem State.memWrite_a (s : State) (addr : Addr) (v : Byte) : (s.memWrite addr v).a = s.a := rfl
@[simp] theorem State.memWrite_x (s : State) (addr : Addr) (v : Byte) : (s.memWrite addr v).x = s.x := rfl
@[simp] theorem State.memWrite_y (s : State) (addr : Addr) (v : Byte) : (s.memWrite addr v).y = s.y := rfl
@[simp] theorem State.memWrite_p (s : State) (addr : Addr) (v : Byte) : (s.memWrite addr v).p = s.p := rfl
@[simp] theorem State.memWrite_cyc (s : State) (addr : Addr) (v : Byte) : (s.memWrite addr v).cyc = s.cyc - 1 := rfl
@[simp] theorem State.memWrite_fault (s : State) (addr : Addr) (v : Byte) : (s.memWrite addr v).fault = s.fault := rfl
@[simp] theorem State.memWrite_mem (s : State) (addr : Addr) (v : Byte) :
    (s.memWrite addr v).mem = s.mem.write addr.toNat v := rfl

/-- A write is seen at its own address, in a memory of canonical form. -/
theorem State.memWrite_byteAt_same {s : State} (addr : Addr) (v : Byte) (h : s.mem.wf = true) :
    (s.memWrite addr v).byteAt addr = v :=
  Memory.read_write_same _ _ h

/-- A write is seen at no other address. -/
theorem State.memWrite_byteAt_other {addr b : Addr} (s : State) (v : Byte) (h : b ≠ addr) :
    (s.memWrite addr v).byteAt b = s.byteAt b :=
  Memory.read_write_other _ _ fun e => h (BitVec.eq_of_toNat_eq e)

/-- A write keeps the canonical form. -/
theorem State.memWrite_wf {s : State} (addr : Addr) (v : Byte) (h : s.mem.wf = true) :
    (s.memWrite addr v).mem.wf = true :=
  Memory.wf_write addr v h

/-! ### Fetching -/

@[simp] theorem State.fetchByte_fst (s : State) : s.fetchByte.1 = s.byteAt s.pc := rfl
@[simp] theorem State.fetchByte_snd (s : State) : s.fetchByte.2 = (s.setPc (s.pc + 1)).tick 1 := rfl

/-- Fetching `n` bytes advances `PC` by `n` modulo 65536 and charges `n` cycles, and does nothing else (R35). -/
theorem State.consume_eq (s : State) (n : Nat) : s.consume n = (s.setPc (s.pc + BitVec.ofNat 16 n)).tick n := by
  unfold State.consume
  induction n generalizing s with
  | zero => apply State.eq_of_fields <;> simp [State.fetchBytes]
  | succ n ih =>
    rw [State.fetchBytes]
    simp only [ih]
    apply State.eq_of_fields <;> simp
    · rw [BitVec.add_assoc, BitVec.ofNat_add, BitVec.add_comm 1#16]
    · omega

@[simp] theorem State.consume_pc (s : State) (n : Nat) : (s.consume n).pc = s.pc + BitVec.ofNat 16 n := by
  simp [State.consume_eq]
@[simp] theorem State.consume_sp (s : State) (n : Nat) : (s.consume n).sp = s.sp := by simp [State.consume_eq]
@[simp] theorem State.consume_a (s : State) (n : Nat) : (s.consume n).a = s.a := by simp [State.consume_eq]
@[simp] theorem State.consume_x (s : State) (n : Nat) : (s.consume n).x = s.x := by simp [State.consume_eq]
@[simp] theorem State.consume_y (s : State) (n : Nat) : (s.consume n).y = s.y := by simp [State.consume_eq]
@[simp] theorem State.consume_p (s : State) (n : Nat) : (s.consume n).p = s.p := by simp [State.consume_eq]
@[simp] theorem State.consume_cyc (s : State) (n : Nat) : (s.consume n).cyc = s.cyc - n := by simp [State.consume_eq]
@[simp] theorem State.consume_fault (s : State) (n : Nat) : (s.consume n).fault = s.fault := by simp [State.consume_eq]
@[simp] theorem State.consume_mem (s : State) (n : Nat) : (s.consume n).mem = s.mem := by simp [State.consume_eq]
@[simp] theorem State.consume_byteAt (s : State) (n : Nat) (addr : Addr) :
    (s.consume n).byteAt addr = s.byteAt addr := by simp [State.consume_eq]

/-- The bytes at `PC`, one by one. -/
@[simp] theorem State.codeBytes_zero (s : State) : s.codeBytes 0 = [] := rfl

theorem State.codeBytes_succ (s : State) (n : Nat) :
    s.codeBytes (n + 1) = s.byteAt s.pc :: ((s.setPc (s.pc + 1)).tick 1).codeBytes n := rfl

/-- The first bytes at `PC` do not depend on how many more are taken. -/
theorem State.codeBytes_add (s : State) (m n : Nat) : ∃ more, s.codeBytes (m + n) = s.codeBytes m ++ more := by
  induction m generalizing s with
  | zero => exact ⟨s.codeBytes n, by rw [Nat.zero_add]; rfl⟩
  | succ m ih =>
    obtain ⟨more, h⟩ := ih ((s.setPc (s.pc + 1)).tick 1)
    exact ⟨more, by rw [Nat.succ_add, State.codeBytes_succ, State.codeBytes_succ, h, List.cons_append]⟩

theorem State.codeBytes_length (s : State) (n : Nat) : (s.codeBytes n).length = n := by
  induction n generalizing s with
  | zero => rfl
  | succ n ih => rw [State.codeBytes_succ, List.length_cons, ih]

/-! ### The stack -/

@[simp] theorem State.push_pc (s : State) (v : Byte) : (s.push v).pc = s.pc := rfl
@[simp] theorem State.push_sp (s : State) (v : Byte) : (s.push v).sp = s.sp - 1 := rfl
@[simp] theorem State.push_a (s : State) (v : Byte) : (s.push v).a = s.a := rfl
@[simp] theorem State.push_x (s : State) (v : Byte) : (s.push v).x = s.x := rfl
@[simp] theorem State.push_y (s : State) (v : Byte) : (s.push v).y = s.y := rfl
@[simp] theorem State.push_p (s : State) (v : Byte) : (s.push v).p = s.p := rfl
@[simp] theorem State.push_cyc (s : State) (v : Byte) : (s.push v).cyc = s.cyc - 1 := rfl
@[simp] theorem State.push_fault (s : State) (v : Byte) : (s.push v).fault = s.fault := rfl
@[simp] theorem State.push_mem (s : State) (v : Byte) : (s.push v).mem = s.mem.write (stackAddr s.sp).toNat v := rfl

@[simp] theorem State.pull_fst (s : State) : s.pull.1 = s.byteAt (stackAddr (s.sp + 1)) := rfl
@[simp] theorem State.pull_snd (s : State) : s.pull.2 = (s.setSp (s.sp + 1)).tick 1 := rfl

/-- Distinct offsets are distinct stack addresses. -/
theorem stackAddr_inj {p q : Byte} (h : stackAddr p = stackAddr q) : p = q := by
  have hz : zext16 p = zext16 q := by simpa [stackAddr] using h
  have hn := congrArg BitVec.toNat hz
  simp only [zext16, BitVec.toNat_setWidth] at hn
  exact BitVec.eq_of_toNat_eq (by omega)

/-! ### Taking the exception -/

@[simp] theorem State.takeUnsupported_eq (s : State) :
    s.takeUnsupported =
      ((s.setPc (s.pc + 1)).tick 1).setFault (some (.unsupportedOpcode (s.byteAt s.pc) s.pc)) := rfl

end Sys2Proof.Machine
end

