-- ==== Sys2Proof/Laws/Decode.lean ====
section
/-! SUPPORT. The decoder: bytes and words, the table's rows and their formats, and how many bytes decoding takes. -/

namespace Sys2Proof

/-! ### Bytes of a word -/

@[simp] theorem word_hiByte_loByte (w : Addr) : word (hiByte w) (loByte w) = w := by
  apply BitVec.eq_of_toNat_eq
  have h := w.isLt
  simp only [word, hiByte, loByte, BitVec.toNat_append, BitVec.extractLsb'_toNat, Nat.shiftRight_zero]
  rw [← Nat.shiftLeft_add_eq_or_of_lt (by omega), Nat.shiftRight_eq_div_pow, Nat.shiftLeft_eq]
  omega

@[simp] theorem loByte_word (hi lo : Byte) : loByte (word hi lo) = lo := by
  apply BitVec.eq_of_toNat_eq
  have h := lo.isLt
  simp only [word, loByte, BitVec.toNat_append, BitVec.extractLsb'_toNat, Nat.shiftRight_zero]
  rw [← Nat.shiftLeft_add_eq_or_of_lt lo.isLt, Nat.shiftLeft_eq]
  omega

@[simp] theorem hiByte_word (hi lo : Byte) : hiByte (word hi lo) = hi := by
  apply BitVec.eq_of_toNat_eq
  have h := lo.isLt
  have h' := hi.isLt
  simp only [word, hiByte, BitVec.toNat_append, BitVec.extractLsb'_toNat]
  rw [← Nat.shiftLeft_add_eq_or_of_lt lo.isLt, Nat.shiftLeft_eq, Nat.shiftRight_eq_div_pow]
  omega

/-! ### Rows and formats -/

/-- The length of an instruction in each format (R50). -/
def Maker.length : Maker → Nat
  | .implied _ => 1
  | .op8 _ => 2
  | .op16 _ => 3

/-- What lookup finds is a row of the table, under its own key. -/
theorem lookup_some {op : Byte} {row : Row} (h : lookup op = some row) : row ∈ instrTable ∧ row.opcode = op :=
  ⟨List.mem_of_find?_eq_some h, by simpa using List.find?_some h⟩

/-- The format of every row is the one its mode fixes (R50). -/
theorem row_format_length : ∀ row ∈ instrTable, row.make.length = row.mode.length := by decide

theorem fetchLength_of_lookup {op : Byte} {row : Row} (h : lookup op = some row) : fetchLength op = row.make.length := by
  rw [row_format_length row (lookup_some h).1, fetchLength, h]

theorem fetchLength_bounds (op : Byte) : 1 ≤ fetchLength op ∧ fetchLength op ≤ Config.maxInstrLength := by
  unfold fetchLength
  split
  · decide
  · rename_i row _
    cases row.mode <;> decide

/-- A format builds an instruction from exactly the operand bytes it has. -/
theorem Maker.build_of_length (mk : Maker) (op : Byte) (bs : List Byte) (h : bs.length + 1 = mk.length) :
    ∃ i, mk.build op bs = .ok i [] := by
  cases mk with
  | implied i =>
    cases bs with
    | nil => exact ⟨i, rfl⟩
    | cons b bs => simp [Maker.length] at h
  | op8 f =>
    match bs, h with
    | [b], _ => exact ⟨f b, rfl⟩
    | [], h | _ :: _ :: _, h => simp [Maker.length] at h
  | op16 f =>
    match bs, h with
    | [lo, hi], _ => exact ⟨f (word hi lo), rfl⟩
    | [], h | [_], h | _ :: _ :: _ :: _, h => simp [Maker.length] at h

/-- More bytes behind an instruction change nothing but what is left over. -/
theorem Maker.build_append {mk : Maker} {op : Byte} {bs rest : List Byte} {i : Instr} (more : List Byte)
    (h : mk.build op bs = .ok i rest) : mk.build op (bs ++ more) = .ok i (rest ++ more) := by
  cases mk with
  | implied j => simp only [Maker.build, DecodeResult.ok.injEq] at h ⊢; exact ⟨h.1, by rw [h.2]⟩
  | op8 f =>
    cases bs with
    | nil => cases h
    | cons b bs => simp only [Maker.build, List.cons_append, DecodeResult.ok.injEq] at h ⊢; exact ⟨h.1, by rw [h.2]⟩
  | op16 f =>
    match bs, h with
    | [], h | [_], h => cases h
    | lo :: hi :: bs, h =>
      simp only [Maker.build, List.cons_append, DecodeResult.ok.injEq] at h ⊢; exact ⟨h.1, by rw [h.2]⟩

/-- Decoding does not look past the instruction (R51). -/
theorem decode_append {bs rest : List Byte} {i : Instr} (more : List Byte) (h : decode bs = .ok i rest) :
    decode (bs ++ more) = .ok i (rest ++ more) := by
  cases bs with
  | nil => cases h
  | cons op bs =>
    simp only [decode, List.cons_append] at h ⊢
    split at h
    · cases h
    · exact Maker.build_append more h

/-! ### Decoding at PC -/

namespace Machine

theorem State.codeBytes_fetchLength (s : State) :
    ∃ tail, s.codeBytes (fetchLength (s.byteAt s.pc)) = s.byteAt s.pc :: tail ∧
      tail.length + 1 = fetchLength (s.byteAt s.pc) := by
  generalize hn : fetchLength (s.byteAt s.pc) = n
  have hpos := (fetchLength_bounds (s.byteAt s.pc)).1
  rw [hn] at hpos
  cases n with
  | zero => omega
  | succ n => exact ⟨_, s.codeBytes_succ n, by rw [State.codeBytes_length]⟩

/-- A supported opcode byte at `PC` decodes, with no byte left over. -/
theorem State.decodeAt_of_lookup {s : State} {row : Row} (h : lookup (s.byteAt s.pc) = some row) :
    ∃ i, s.decodeAt = .ok i [] := by
  obtain ⟨tail, ht, hl⟩ := s.codeBytes_fetchLength
  unfold State.decodeAt
  rw [ht]
  simp only [decode, h]
  exact Maker.build_of_length _ _ _ (hl.trans (fetchLength_of_lookup h))

/-- An unsupported opcode byte at `PC` is refused by name. -/
theorem State.decodeAt_of_lookup_none {s : State} (h : lookup (s.byteAt s.pc) = none) :
    s.decodeAt = .error (.unsupportedOpcode (s.byteAt s.pc)) := by
  obtain ⟨tail, ht, _⟩ := s.codeBytes_fetchLength
  unfold State.decodeAt
  rw [ht]
  simp only [decode, h]

/-- Decoding at `PC` fails for no other reason than an unsupported opcode byte (R52, R150). -/
theorem State.decodeAt_error {s : State} {e : DecodeError} (h : s.decodeAt = .error e) : lookup (s.byteAt s.pc) = none := by
  cases hl : lookup (s.byteAt s.pc) with
  | none => rfl
  | some row =>
    obtain ⟨i, hi⟩ := State.decodeAt_of_lookup hl
    rw [hi] at h
    cases h

/-- Decoding at `PC` gives what decoding any longer stretch of bytes from `PC` gives. -/
theorem State.decode_codeBytes_of_decodeAt {s : State} {i : Instr} (h : s.decodeAt = .ok i []) :
    ∃ rest, decode (s.codeBytes Config.maxInstrLength) = .ok i rest := by
  obtain ⟨more, hm⟩ :=
    s.codeBytes_add (fetchLength (s.byteAt s.pc)) (Config.maxInstrLength - fetchLength (s.byteAt s.pc))
  rw [Nat.add_sub_of_le (fetchLength_bounds _).2] at hm
  exact ⟨[] ++ more, by rw [hm]; exact decode_append more h⟩

end Machine

end Sys2Proof
end

