-- ==== Sys2Proof/Laws/Flags.lean ====
section
/-! SUPPORT. The flag register unit: reading a flag after a flag has been written by name, and what each flag computation
does to each flag. -/

namespace Sys2Proof.Machine

@[simp] theorem Flags.get_set_same (p : Flags) (f : FlagName) (on : Bool) : (p.set f on).get f = on := by
  cases f <;> rfl

theorem Flags.get_set_other {f g : FlagName} (p : Flags) (on : Bool) (h : g ≠ f) : (p.set f on).get g = p.get g := by
  cases f <;> cases g <;> first | rfl | exact absurd rfl h

@[simp] theorem Flags.setZN_c (p : Flags) (v : Byte) : (p.setZN v).c = p.c := rfl
@[simp] theorem Flags.setZN_z (p : Flags) (v : Byte) : (p.setZN v).z = (v == 0) := rfl
@[simp] theorem Flags.setZN_i (p : Flags) (v : Byte) : (p.setZN v).i = p.i := rfl
@[simp] theorem Flags.setZN_d (p : Flags) (v : Byte) : (p.setZN v).d = p.d := rfl
@[simp] theorem Flags.setZN_b (p : Flags) (v : Byte) : (p.setZN v).b = p.b := rfl
@[simp] theorem Flags.setZN_u (p : Flags) (v : Byte) : (p.setZN v).u = p.u := rfl
@[simp] theorem Flags.setZN_v (p : Flags) (v : Byte) : (p.setZN v).v = p.v := rfl
@[simp] theorem Flags.setZN_n (p : Flags) (v : Byte) : (p.setZN v).n = v.getLsbD 7 := rfl

/-- SetCarryIfOverflow as one record: Carry is the old Carry or the carry out (R19). -/
theorem Flags.setCarryIfOverflow_eq (p : Flags) (sum : Nat) :
    p.setCarryIfOverflow sum = { p with c := p.c || decide (sum > 0xFF) } := by
  by_cases h : sum > 0xFF <;> simp [Flags.setCarryIfOverflow, h]

end Sys2Proof.Machine
end

