-- ==== Sys2Proof/Laws/Operands.lean ====
section
/-! SUPPORT. The addressing-mode resolver: resolving changes nothing but the cycle counter, and the address it gives depends
on the index registers and the memory image alone. -/

namespace Sys2Proof.Machine

/-- The cycles a mode charges beside its operand fetches: its pointer reads and its extra cycles (R76). -/
def State.modeCycles (s : State) (dir : Dir) : EaMode → Nat
  | .zp _ => 0
  | .zpx _ => 1
  | .zpy _ => 1
  | .abs _ => 0
  | .absx w => if dir == .write || pageCrossed w (w + zext16 s.x) then 1 else 0
  | .absy w => if dir == .write || pageCrossed w (w + zext16 s.y) then 1 else 0
  | .indx _ => 3
  | .indy n =>
    let base := word (s.byteAt (zext16 n + 1)) (s.byteAt (zext16 n))
    if dir == .write || pageCrossed base (base + zext16 s.y) then 3 else 2

theorem State.indexCycle_eq (s : State) (dir : Dir) (base ea : Addr) :
    s.indexCycle dir base ea = s.tick (if dir == .write || pageCrossed base ea then 1 else 0) := by
  unfold State.indexCycle
  split
  · rfl
  · apply State.eq_of_fields <;> simp

/-- Resolving charges the mode's cycles and does nothing else (R76). -/
theorem State.resolveCharge_eq (s : State) (dir : Dir) (m : EaMode) :
    s.resolveCharge dir m = s.tick (s.modeCycles dir m) := by
  cases m with
  | zp n => apply State.eq_of_fields <;> simp [State.resolveCharge, State.modeCycles]
  | zpx n => rfl
  | zpy n => rfl
  | abs w => apply State.eq_of_fields <;> simp [State.resolveCharge, State.modeCycles]
  | absx w => exact State.indexCycle_eq ..
  | absy w => exact State.indexCycle_eq ..
  | indx n => simp [State.resolveCharge, State.modeCycles]
  | indy n =>
    simp only [State.resolveCharge, State.indexCycle_eq, State.readWord_snd, State.tick_tick]
    congr 1
    simp only [State.modeCycles, State.effAddr, zpPtrWrap, State.readWord_fst]
    split
    · rename_i h; simp only [h, if_true]
    · rename_i h; simp only [h]; rfl

/-- An effective address depends on the index registers and the memory image alone. -/
theorem State.effAddr_congr {s t : State} (hx : s.x = t.x) (hy : s.y = t.y) (hm : s.mem = t.mem) (m : EaMode) :
    s.effAddr m = t.effAddr m := by
  cases m <;> simp [State.effAddr, State.indxPtr, zpPtrWrap, hx, hy, State.byteAt_congr hm]

/-- A mode's cycles depend on the index registers and the memory image alone. -/
theorem State.modeCycles_congr {s t : State} (hx : s.x = t.x) (hy : s.y = t.y) (hm : s.mem = t.mem) (dir : Dir)
    (m : EaMode) : s.modeCycles dir m = t.modeCycles dir m := by
  cases m <;> simp [State.modeCycles, hx, hy, State.byteAt_congr hm]

@[simp] theorem State.setPc_effAddr (s : State) (v : Addr) (m : EaMode) : (s.setPc v).effAddr m = s.effAddr m :=
  State.effAddr_congr rfl rfl rfl m
@[simp] theorem State.setPc_modeCycles (s : State) (v : Addr) (dir : Dir) (m : EaMode) :
    (s.setPc v).modeCycles dir m = s.modeCycles dir m := State.modeCycles_congr rfl rfl rfl dir m
@[simp] theorem State.setSp_effAddr (s : State) (v : Byte) (m : EaMode) : (s.setSp v).effAddr m = s.effAddr m :=
  State.effAddr_congr rfl rfl rfl m
@[simp] theorem State.setSp_modeCycles (s : State) (v : Byte) (dir : Dir) (m : EaMode) :
    (s.setSp v).modeCycles dir m = s.modeCycles dir m := State.modeCycles_congr rfl rfl rfl dir m
@[simp] theorem State.setA_effAddr (s : State) (v : Byte) (m : EaMode) : (s.setA v).effAddr m = s.effAddr m :=
  State.effAddr_congr rfl rfl rfl m
@[simp] theorem State.setA_modeCycles (s : State) (v : Byte) (dir : Dir) (m : EaMode) :
    (s.setA v).modeCycles dir m = s.modeCycles dir m := State.modeCycles_congr rfl rfl rfl dir m
@[simp] theorem State.setP_effAddr (s : State) (v : Flags) (m : EaMode) : (s.setP v).effAddr m = s.effAddr m :=
  State.effAddr_congr rfl rfl rfl m
@[simp] theorem State.setP_modeCycles (s : State) (v : Flags) (dir : Dir) (m : EaMode) :
    (s.setP v).modeCycles dir m = s.modeCycles dir m := State.modeCycles_congr rfl rfl rfl dir m
@[simp] theorem State.setCyc_effAddr (s : State) (v : Int) (m : EaMode) : (s.setCyc v).effAddr m = s.effAddr m :=
  State.effAddr_congr rfl rfl rfl m
@[simp] theorem State.setCyc_modeCycles (s : State) (v : Int) (dir : Dir) (m : EaMode) :
    (s.setCyc v).modeCycles dir m = s.modeCycles dir m := State.modeCycles_congr rfl rfl rfl dir m
@[simp] theorem State.setFault_effAddr (s : State) (v : Option Fault) (m : EaMode) : (s.setFault v).effAddr m = s.effAddr m :=
  State.effAddr_congr rfl rfl rfl m
@[simp] theorem State.setFault_modeCycles (s : State) (v : Option Fault) (dir : Dir) (m : EaMode) :
    (s.setFault v).modeCycles dir m = s.modeCycles dir m := State.modeCycles_congr rfl rfl rfl dir m

@[simp] theorem State.effAddr_consume (s : State) (n : Nat) (m : EaMode) : (s.consume n).effAddr m = s.effAddr m :=
  State.effAddr_congr (by simp) (by simp) (by simp) m

@[simp] theorem State.modeCycles_consume (s : State) (n : Nat) (dir : Dir) (m : EaMode) :
    (s.consume n).modeCycles dir m = s.modeCycles dir m := by
  cases m <;> simp [State.modeCycles]

@[simp] theorem State.resolve_fst (s : State) (dir : Dir) (m : EaMode) : (s.resolve dir m).1 = s.effAddr m := rfl

@[simp] theorem State.resolve_snd (s : State) (dir : Dir) (m : EaMode) :
    (s.resolve dir m).2 = s.tick (s.modeCycles dir m) := State.resolveCharge_eq s dir m

/-- `Operand(mode)`: the byte at the effective address, for the mode's cycles and one read (R75). -/
@[simp] theorem State.operand_fst (s : State) (m : EaMode) : (s.operand m).1 = s.byteAt (s.effAddr m) := by
  simp [State.operand]

@[simp] theorem State.operand_snd (s : State) (m : EaMode) :
    (s.operand m).2 = s.tick (s.modeCycles .read m + 1) := by
  simp [State.operand]

/-- The state in which an instruction that reads a byte of memory acts on it. -/
def State.readDone (s : State) (m : EaMode) : State :=
  (s.consume m.mode.length).tick (s.modeCycles .read m + 1)

/-- The state in which an instruction that writes a byte of memory has resolved its address. -/
def State.writeReady (s : State) (m : EaMode) : State :=
  (s.consume m.mode.length).tick (s.modeCycles .write m)

/-- What an instruction with a memory operand does: its action on the byte at the effective address. -/
theorem State.withOperand_eq (s : State) (m : EaMode) (act : State → Byte → State) :
    s.withOperand m act = act (s.readDone m) (s.byteAt (s.effAddr m)) := by
  simp [State.withOperand, State.readDone]

/-- What an instruction with an immediate operand does. -/
theorem State.withImm_eq (s : State) (m : Byte) (act : State → Byte → State) :
    s.withImm m act = act (s.consume 2) m := rfl

/-- What a store does: one byte written at the effective address (R83). -/
theorem State.storeByte_eq (s : State) (m : EaMode) (v : Byte) :
    s.storeByte m v = (s.writeReady m).memWrite (s.effAddr m) v := by
  simp [State.storeByte, State.writeReady]

/-- What a read-modify-write does: the byte at the effective address replaced, Zero and Negative from the new byte (R119). -/
theorem State.modifyByte_eq (s : State) (m : EaMode) (f : Byte → Byte) :
    s.modifyByte m f =
      ((((s.writeReady m).tick 2).memWrite (s.effAddr m) (f (s.byteAt (s.effAddr m)))).setP
        (s.p.setZN (f (s.byteAt (s.effAddr m))))) := by
  simp [State.modifyByte, State.writeReady, Nat.add_assoc]

/-- What a one-byte instruction with no bus access does. -/
theorem State.withTick_eq (s : State) (act : State → State) :
    s.withTick act = act ((s.setPc (s.pc + 1)).tick 2) := by
  simp [State.withTick, State.consume_eq, Mode.length]

theorem EaMode.length_bounds (m : EaMode) : 2 ≤ m.mode.length ∧ m.mode.length ≤ 3 := by
  cases m <;> simp [EaMode.mode, Mode.length]

end Sys2Proof.Machine
end

