-- ==== Sys2Proof/Laws/Exec.lean ====
section
/-! SUPPORT. What `exec` can do, said once by mnemonic and operand: 42 effects for 102 instructions. Proofs over all
instructions go through it. -/

namespace Sys2Proof.Machine

/-- An action on the operand byte, immediate or from memory. -/
def State.actOn (s : State) (o : Operand) (act : State → Byte → State) : State :=
  match o with
  | .imm n => s.withImm n act
  | .ea m => s.withOperand m act
  | .none | .ind _ => s

/-- A store of a byte through an operand with an address. -/
def State.storeThrough (s : State) (o : Operand) (v : Byte) : State :=
  match o with
  | .ea m => s.storeByte m v
  | .none | .imm _ | .ind _ => s

/-- A read-modify-write through an operand with an address. -/
def State.modifyThrough (s : State) (o : Operand) (f : Byte → Byte) : State :=
  match o with
  | .ea m => s.modifyByte m f
  | .none | .imm _ | .ind _ => s

/-- JSR and its target. -/
def State.callTo (s : State) (target : Addr) : State :=
  ((((s.consume 3).push (hiByte ((s.consume 3).pc - 1))).push (loByte ((s.consume 3).pc - 1))).tick 1).setPc target

/-- RTS. -/
def State.returnFrom (s : State) : State :=
  (((((s.consume 1).pull.2).pull.2).tick 3).setPc
    (word ((s.consume 1).pull.2.pull.1) (s.consume 1).pull.1 + 1))

/-- JMP, with a target or with a pointer to it. -/
def State.jumpThrough (s : State) (o : Operand) : State :=
  match o with
  | .ea (.abs w) => (s.consume 3).setPc w
  | .ind w => (((s.consume 3).readWord jmpIndPageWrap w).2).setPc ((s.consume 3).readWord jmpIndPageWrap w).1
  | _ => s

/-- The next state of every instruction, by its mnemonic and its operand. -/
def State.effect (s : State) (o : Operand) : Mnemonic → State
  | .lda => s.actOn o State.loadA
  | .ldx => s.actOn o State.loadX
  | .ldy => s.actOn o State.loadY
  | .sta => s.storeThrough o s.a
  | .stx => s.storeThrough o s.x
  | .sty => s.storeThrough o s.y
  | .tax => s.withTick fun t => t.loadX t.a
  | .tay => s.withTick fun t => t.loadY t.a
  | .txa => s.withTick fun t => t.loadA t.x
  | .tya => s.withTick fun t => t.loadA t.y
  | .tsx => s.withTick fun t => t.loadX t.sp
  | .txs => s.withTick fun t => t.setSp t.x
  | .pha => s.pushInstr s.a
  | .pla => s.pullInstr State.loadA
  | .php => s.pushInstr s.p.toByte
  | .plp => s.pullInstr fun t b => t.setP (Flags.fromByte b)
  | .jsr => match o with
    | .ea (.abs w) => s.callTo w
    | _ => s
  | .rts => s.returnFrom
  | .jmp => s.jumpThrough o
  | .and => s.actOn o State.andA
  | .ora => s.actOn o State.oraA
  | .eor => s.actOn o State.eorA
  | .inx => s.withTick fun t => t.loadX (t.x + 1)
  | .iny => s.withTick fun t => t.loadY (t.y + 1)
  | .dex => s.withTick fun t => t.loadX (t.x - 1)
  | .dey => s.withTick fun t => t.loadY (t.y - 1)
  | .inc => s.modifyThrough o (· + 1)
  | .dec => s.modifyThrough o (· - 1)
  | .bit => s.actOn o State.bitA
  | .clc => s.flagInstr .c false
  | .sec => s.flagInstr .c true
  | .cli => s.flagInstr .i false
  | .sei => s.flagInstr .i true
  | .clv => s.flagInstr .v false
  | .cld => s.flagInstr .d false
  | .sed => s.flagInstr .d true
  | .nop => s.withTick id
  | .cmp => s.actOn o State.cmpA
  | .cpx => s.actOn o State.cmpX
  | .cpy => s.actOn o State.cmpY
  | .adc => s.actOn o State.addA
  | .sbc => s.actOn o fun t m => t.addA (~~~m)

/-- Every instruction answers the next state of its effect. -/
theorem exec_eq_effect (i : Instr) (s : State) : exec i s = .next (s.effect i.operand i.mnemonic) := by
  cases i <;> rfl

/-- An instruction answers no other next state than its effect. -/
theorem eq_effect_of_exec {i : Instr} {s t : State} (h : exec i s = .next t) : t = s.effect i.operand i.mnemonic := by
  rw [exec_eq_effect] at h
  injection h with h
  exact h.symm

/-- Whether a mnemonic and an operand belong together: the operand forms of each family (R60). -/
def operandFits : Operand → Mnemonic → Bool
  | .ea (.abs _), .jsr => true
  | .ea (.abs _), .jmp => true
  | .ind _, .jmp => true
  | .ea _, .sta | .ea _, .stx | .ea _, .sty | .ea _, .inc | .ea _, .dec => true
  | .ea _, .lda | .ea _, .ldx | .ea _, .ldy | .ea _, .and | .ea _, .ora | .ea _, .eor => true
  | .ea _, .bit | .ea _, .cmp | .ea _, .cpx | .ea _, .cpy => true
  | .imm _, .lda | .imm _, .ldx | .imm _, .ldy | .imm _, .and | .imm _, .ora | .imm _, .eor => true
  | .imm _, .cmp | .imm _, .cpx | .imm _, .cpy | .imm _, .adc | .imm _, .sbc => true
  | .none, .tax | .none, .tay | .none, .txa | .none, .tya | .none, .tsx | .none, .txs => true
  | .none, .pha | .none, .pla | .none, .php | .none, .plp | .none, .rts | .none, .nop => true
  | .none, .inx | .none, .iny | .none, .dex | .none, .dey => true
  | .none, .clc | .none, .sec | .none, .cli | .none, .sei | .none, .clv | .none, .cld | .none, .sed => true
  | _, _ => false

theorem operandFits_instr (i : Instr) : operandFits i.operand i.mnemonic = true := by
  cases i <;> rfl

end Sys2Proof.Machine
end

