-- ==== Sys2Proof/Laws/PerInstr.lean ====
section
/-! SUPPORT. Statements made per instruction, one lemma per constructor. -/

namespace Sys2Proof.Laws.EncodingShape

/-- The Instruction Table has a row under the instruction's opcode byte, with its mnemonic and its mode, and the
instruction's encoding has the length that mode fixes (R50, R52, R60). -/
def Statement (i : Instr) : Prop :=
  ∃ row, lookup i.opcode = some row ∧ row.mnemonic = i.mnemonic ∧ row.mode = i.operand.mode ∧
    (encode i).length = row.mode.length

theorem ldaImm (op8 : Byte) : Statement (.ldaImm op8) := ⟨_, rfl, rfl, rfl, rfl⟩
theorem ldaZp (op8 : Byte) : Statement (.ldaZp op8) := ⟨_, rfl, rfl, rfl, rfl⟩
theorem ldaZpx (op8 : Byte) : Statement (.ldaZpx op8) := ⟨_, rfl, rfl, rfl, rfl⟩
theorem ldaAbs (op16 : Addr) : Statement (.ldaAbs op16) := ⟨_, rfl, rfl, rfl, rfl⟩
theorem ldaAbsx (op16 : Addr) : Statement (.ldaAbsx op16) := ⟨_, rfl, rfl, rfl, rfl⟩
theorem ldaAbsy (op16 : Addr) : Statement (.ldaAbsy op16) := ⟨_, rfl, rfl, rfl, rfl⟩
theorem ldaIndx (op8 : Byte) : Statement (.ldaIndx op8) := ⟨_, rfl, rfl, rfl, rfl⟩
theorem ldaIndy (op8 : Byte) : Statement (.ldaIndy op8) := ⟨_, rfl, rfl, rfl, rfl⟩
theorem ldxImm (op8 : Byte) : Statement (.ldxImm op8) := ⟨_, rfl, rfl, rfl, rfl⟩
theorem ldxZp (op8 : Byte) : Statement (.ldxZp op8) := ⟨_, rfl, rfl, rfl, rfl⟩
theorem ldxZpy (op8 : Byte) : Statement (.ldxZpy op8) := ⟨_, rfl, rfl, rfl, rfl⟩
theorem ldxAbs (op16 : Addr) : Statement (.ldxAbs op16) := ⟨_, rfl, rfl, rfl, rfl⟩
theorem ldxAbsy (op16 : Addr) : Statement (.ldxAbsy op16) := ⟨_, rfl, rfl, rfl, rfl⟩
theorem ldyImm (op8 : Byte) : Statement (.ldyImm op8) := ⟨_, rfl, rfl, rfl, rfl⟩
theorem ldyZp (op8 : Byte) : Statement (.ldyZp op8) := ⟨_, rfl, rfl, rfl, rfl⟩
theorem ldyZpx (op8 : Byte) : Statement (.ldyZpx op8) := ⟨_, rfl, rfl, rfl, rfl⟩
theorem ldyAbs (op16 : Addr) : Statement (.ldyAbs op16) := ⟨_, rfl, rfl, rfl, rfl⟩
theorem ldyAbsx (op16 : Addr) : Statement (.ldyAbsx op16) := ⟨_, rfl, rfl, rfl, rfl⟩
theorem staZp (op8 : Byte) : Statement (.staZp op8) := ⟨_, rfl, rfl, rfl, rfl⟩
theorem staZpx (op8 : Byte) : Statement (.staZpx op8) := ⟨_, rfl, rfl, rfl, rfl⟩
theorem staAbs (op16 : Addr) : Statement (.staAbs op16) := ⟨_, rfl, rfl, rfl, rfl⟩
theorem staAbsx (op16 : Addr) : Statement (.staAbsx op16) := ⟨_, rfl, rfl, rfl, rfl⟩
theorem staAbsy (op16 : Addr) : Statement (.staAbsy op16) := ⟨_, rfl, rfl, rfl, rfl⟩
theorem staIndx (op8 : Byte) : Statement (.staIndx op8) := ⟨_, rfl, rfl, rfl, rfl⟩
theorem staIndy (op8 : Byte) : Statement (.staIndy op8) := ⟨_, rfl, rfl, rfl, rfl⟩
theorem stxZp (op8 : Byte) : Statement (.stxZp op8) := ⟨_, rfl, rfl, rfl, rfl⟩
theorem stxZpy (op8 : Byte) : Statement (.stxZpy op8) := ⟨_, rfl, rfl, rfl, rfl⟩
theorem stxAbs (op16 : Addr) : Statement (.stxAbs op16) := ⟨_, rfl, rfl, rfl, rfl⟩
theorem styZp (op8 : Byte) : Statement (.styZp op8) := ⟨_, rfl, rfl, rfl, rfl⟩
theorem styZpx (op8 : Byte) : Statement (.styZpx op8) := ⟨_, rfl, rfl, rfl, rfl⟩
theorem styAbs (op16 : Addr) : Statement (.styAbs op16) := ⟨_, rfl, rfl, rfl, rfl⟩
theorem tax : Statement .tax := ⟨_, rfl, rfl, rfl, rfl⟩
theorem tay : Statement .tay := ⟨_, rfl, rfl, rfl, rfl⟩
theorem txa : Statement .txa := ⟨_, rfl, rfl, rfl, rfl⟩
theorem tya : Statement .tya := ⟨_, rfl, rfl, rfl, rfl⟩
theorem tsx : Statement .tsx := ⟨_, rfl, rfl, rfl, rfl⟩
theorem txs : Statement .txs := ⟨_, rfl, rfl, rfl, rfl⟩
theorem pha : Statement .pha := ⟨_, rfl, rfl, rfl, rfl⟩
theorem pla : Statement .pla := ⟨_, rfl, rfl, rfl, rfl⟩
theorem php : Statement .php := ⟨_, rfl, rfl, rfl, rfl⟩
theorem plp : Statement .plp := ⟨_, rfl, rfl, rfl, rfl⟩
theorem jsr (op16 : Addr) : Statement (.jsr op16) := ⟨_, rfl, rfl, rfl, rfl⟩
theorem rts : Statement .rts := ⟨_, rfl, rfl, rfl, rfl⟩
theorem jmpAbs (op16 : Addr) : Statement (.jmpAbs op16) := ⟨_, rfl, rfl, rfl, rfl⟩
theorem jmpInd (op16 : Addr) : Statement (.jmpInd op16) := ⟨_, rfl, rfl, rfl, rfl⟩
theorem andImm (op8 : Byte) : Statement (.andImm op8) := ⟨_, rfl, rfl, rfl, rfl⟩
theorem andZp (op8 : Byte) : Statement (.andZp op8) := ⟨_, rfl, rfl, rfl, rfl⟩
theorem andZpx (op8 : Byte) : Statement (.andZpx op8) := ⟨_, rfl, rfl, rfl, rfl⟩
theorem andAbs (op16 : Addr) : Statement (.andAbs op16) := ⟨_, rfl, rfl, rfl, rfl⟩
theorem andAbsx (op16 : Addr) : Statement (.andAbsx op16) := ⟨_, rfl, rfl, rfl, rfl⟩
theorem andAbsy (op16 : Addr) : Statement (.andAbsy op16) := ⟨_, rfl, rfl, rfl, rfl⟩
theorem andIndx (op8 : Byte) : Statement (.andIndx op8) := ⟨_, rfl, rfl, rfl, rfl⟩
theorem andIndy (op8 : Byte) : Statement (.andIndy op8) := ⟨_, rfl, rfl, rfl, rfl⟩
theorem oraImm (op8 : Byte) : Statement (.oraImm op8) := ⟨_, rfl, rfl, rfl, rfl⟩
theorem oraZp (op8 : Byte) : Statement (.oraZp op8) := ⟨_, rfl, rfl, rfl, rfl⟩
theorem oraZpx (op8 : Byte) : Statement (.oraZpx op8) := ⟨_, rfl, rfl, rfl, rfl⟩
theorem oraAbs (op16 : Addr) : Statement (.oraAbs op16) := ⟨_, rfl, rfl, rfl, rfl⟩
theorem oraAbsx (op16 : Addr) : Statement (.oraAbsx op16) := ⟨_, rfl, rfl, rfl, rfl⟩
theorem oraAbsy (op16 : Addr) : Statement (.oraAbsy op16) := ⟨_, rfl, rfl, rfl, rfl⟩
theorem oraIndx (op8 : Byte) : Statement (.oraIndx op8) := ⟨_, rfl, rfl, rfl, rfl⟩
theorem oraIndy (op8 : Byte) : Statement (.oraIndy op8) := ⟨_, rfl, rfl, rfl, rfl⟩
theorem eorImm (op8 : Byte) : Statement (.eorImm op8) := ⟨_, rfl, rfl, rfl, rfl⟩
theorem eorZp (op8 : Byte) : Statement (.eorZp op8) := ⟨_, rfl, rfl, rfl, rfl⟩
theorem eorZpx (op8 : Byte) : Statement (.eorZpx op8) := ⟨_, rfl, rfl, rfl, rfl⟩
theorem eorAbs (op16 : Addr) : Statement (.eorAbs op16) := ⟨_, rfl, rfl, rfl, rfl⟩
theorem eorAbsx (op16 : Addr) : Statement (.eorAbsx op16) := ⟨_, rfl, rfl, rfl, rfl⟩
theorem eorAbsy (op16 : Addr) : Statement (.eorAbsy op16) := ⟨_, rfl, rfl, rfl, rfl⟩
theorem eorIndx (op8 : Byte) : Statement (.eorIndx op8) := ⟨_, rfl, rfl, rfl, rfl⟩
theorem eorIndy (op8 : Byte) : Statement (.eorIndy op8) := ⟨_, rfl, rfl, rfl, rfl⟩
theorem inx : Statement .inx := ⟨_, rfl, rfl, rfl, rfl⟩
theorem iny : Statement .iny := ⟨_, rfl, rfl, rfl, rfl⟩
theorem dex : Statement .dex := ⟨_, rfl, rfl, rfl, rfl⟩
theorem dey : Statement .dey := ⟨_, rfl, rfl, rfl, rfl⟩
theorem incZp (op8 : Byte) : Statement (.incZp op8) := ⟨_, rfl, rfl, rfl, rfl⟩
theorem incZpx (op8 : Byte) : Statement (.incZpx op8) := ⟨_, rfl, rfl, rfl, rfl⟩
theorem incAbs (op16 : Addr) : Statement (.incAbs op16) := ⟨_, rfl, rfl, rfl, rfl⟩
theorem incAbsx (op16 : Addr) : Statement (.incAbsx op16) := ⟨_, rfl, rfl, rfl, rfl⟩
theorem decZp (op8 : Byte) : Statement (.decZp op8) := ⟨_, rfl, rfl, rfl, rfl⟩
theorem decZpx (op8 : Byte) : Statement (.decZpx op8) := ⟨_, rfl, rfl, rfl, rfl⟩
theorem decAbs (op16 : Addr) : Statement (.decAbs op16) := ⟨_, rfl, rfl, rfl, rfl⟩
theorem decAbsx (op16 : Addr) : Statement (.decAbsx op16) := ⟨_, rfl, rfl, rfl, rfl⟩
theorem bitZp (op8 : Byte) : Statement (.bitZp op8) := ⟨_, rfl, rfl, rfl, rfl⟩
theorem bitAbs (op16 : Addr) : Statement (.bitAbs op16) := ⟨_, rfl, rfl, rfl, rfl⟩
theorem clc : Statement .clc := ⟨_, rfl, rfl, rfl, rfl⟩
theorem sec : Statement .sec := ⟨_, rfl, rfl, rfl, rfl⟩
theorem cli : Statement .cli := ⟨_, rfl, rfl, rfl, rfl⟩
theorem sei : Statement .sei := ⟨_, rfl, rfl, rfl, rfl⟩
theorem clv : Statement .clv := ⟨_, rfl, rfl, rfl, rfl⟩
theorem cld : Statement .cld := ⟨_, rfl, rfl, rfl, rfl⟩
theorem sed : Statement .sed := ⟨_, rfl, rfl, rfl, rfl⟩
theorem nop : Statement .nop := ⟨_, rfl, rfl, rfl, rfl⟩
theorem cmpImm (op8 : Byte) : Statement (.cmpImm op8) := ⟨_, rfl, rfl, rfl, rfl⟩
theorem cmpZp (op8 : Byte) : Statement (.cmpZp op8) := ⟨_, rfl, rfl, rfl, rfl⟩
theorem cmpAbs (op16 : Addr) : Statement (.cmpAbs op16) := ⟨_, rfl, rfl, rfl, rfl⟩
theorem cpxImm (op8 : Byte) : Statement (.cpxImm op8) := ⟨_, rfl, rfl, rfl, rfl⟩
theorem cpxZp (op8 : Byte) : Statement (.cpxZp op8) := ⟨_, rfl, rfl, rfl, rfl⟩
theorem cpxAbs (op16 : Addr) : Statement (.cpxAbs op16) := ⟨_, rfl, rfl, rfl, rfl⟩
theorem cpyImm (op8 : Byte) : Statement (.cpyImm op8) := ⟨_, rfl, rfl, rfl, rfl⟩
theorem cpyZp (op8 : Byte) : Statement (.cpyZp op8) := ⟨_, rfl, rfl, rfl, rfl⟩
theorem cpyAbs (op16 : Addr) : Statement (.cpyAbs op16) := ⟨_, rfl, rfl, rfl, rfl⟩
theorem adcImm (op8 : Byte) : Statement (.adcImm op8) := ⟨_, rfl, rfl, rfl, rfl⟩
theorem sbcImm (op8 : Byte) : Statement (.sbcImm op8) := ⟨_, rfl, rfl, rfl, rfl⟩

end Sys2Proof.Laws.EncodingShape
end

