-- ==== Sys2Proof/Laws/Step.lean ====
section
/-! SUPPORT. What a step can do (spec/70_reset_and_hazards.md R177), said once. -/

namespace Sys2Proof.Machine

/-- A step that answers a next state has held a spent run, run one decoded instruction, or taken the exception. -/
theorem step_next_cases {s t : State} (h : step s = .next t) :
    s.fault = none ∧
      ((s.cyc ≤ 0 ∧ t = s) ∨
       (0 < s.cyc ∧ ∃ i rest, s.decodeAt = .ok i rest ∧ exec i s = .next t) ∨
       (0 < s.cyc ∧ ∃ e, s.decodeAt = .error e ∧ t = s.takeUnsupported)) := by
  unfold step at h
  split at h
  · cases h
  · refine ⟨‹_›, ?_⟩
    split at h
    · injection h with h; exact .inl ⟨‹_›, h.symm⟩
    · have hc : 0 < s.cyc := by omega
      split at h
      · exact .inr (.inl ⟨hc, _, _, ‹_›, h⟩)
      · injection h with h; exact .inr (.inr ⟨hc, _, ‹_›, h.symm⟩)

/-- A run that goes on runs the instruction at `PC`. -/
theorem step_of_decodeAt {s : State} {i : Instr} {rest : List Byte} (hf : s.fault = none) (hc : 0 < s.cyc)
    (hd : s.decodeAt = .ok i rest) : step s = exec i s := by
  unfold step
  rw [hf]
  simp only [hd]
  exact if_neg (by omega)

/-- A run that goes on takes the exception where nothing decodes. -/
theorem step_of_decodeAt_error {s : State} {e : DecodeError} (hf : s.fault = none) (hc : 0 < s.cyc)
    (hd : s.decodeAt = .error e) : step s = .next s.takeUnsupported := by
  unfold step
  rw [hf]
  simp only [hd]
  exact if_neg (by omega)

end Sys2Proof.Machine
end

