-- ==== Sys2Proof/Tests/Slice0.lean ====
section
/-! SUPPORT. Tests. Expected results come from spec/95_test_vectors.md (S and V numbers) and from the encoding lines of
spec/30_encoding.md R60; the witnesses show that the hypotheses of the statements can be met. -/

open Sys2Proof Sys2Proof.Machine

namespace Sys2Proof.Tests

/-! ### Well-formedness: what the checks refuse -/

theorem test_wf_accepts : formWf .lda .imm = true ∧ bytesWf [0xA9, 0x84] = true ∧ (Instr.ldaImm 0x84).wf = true := by decide
theorem test_wf_store_has_no_immediate : formWf .sta .imm = false := by decide
theorem test_wf_adc_has_no_memory_form : formWf .adc .zp = false ∧ formWf .sbc .abs = false := by decide
theorem test_wf_cmp_has_no_indexed_form : formWf .cmp .absx = false := by decide
theorem test_wf_empty_string : bytesWf [] = false := by decide
theorem test_wf_unsupported_byte : bytesWf [0x00] = false ∧ bytesWf [0x0A] = false ∧ bytesWf [0xFF] = false := by decide
theorem test_wf_missing_operand : bytesWf [0xA9] = false ∧ bytesWf [0xAD, 0x34] = false := by decide
theorem test_wf_byte_too_many : bytesWf [0xEA, 0xEA] = false := by decide

/-! ### Decoding: every row of R60, its bytes written out, with operand bytes 0x34 0x12 -/

theorem test_decode_loads :
    decode [0xA9, 0x34] = .ok (.ldaImm 0x34) [] ∧
    decode [0xA5, 0x34] = .ok (.ldaZp 0x34) [] ∧
    decode [0xB5, 0x34] = .ok (.ldaZpx 0x34) [] ∧
    decode [0xAD, 0x34, 0x12] = .ok (.ldaAbs 0x1234) [] ∧
    decode [0xBD, 0x34, 0x12] = .ok (.ldaAbsx 0x1234) [] ∧
    decode [0xB9, 0x34, 0x12] = .ok (.ldaAbsy 0x1234) [] ∧
    decode [0xA1, 0x34] = .ok (.ldaIndx 0x34) [] ∧
    decode [0xB1, 0x34] = .ok (.ldaIndy 0x34) [] ∧
    decode [0xA2, 0x34] = .ok (.ldxImm 0x34) [] ∧
    decode [0xA6, 0x34] = .ok (.ldxZp 0x34) [] ∧
    decode [0xB6, 0x34] = .ok (.ldxZpy 0x34) [] ∧
    decode [0xAE, 0x34, 0x12] = .ok (.ldxAbs 0x1234) [] ∧
    decode [0xBE, 0x34, 0x12] = .ok (.ldxAbsy 0x1234) [] ∧
    decode [0xA0, 0x34] = .ok (.ldyImm 0x34) [] ∧
    decode [0xA4, 0x34] = .ok (.ldyZp 0x34) [] ∧
    decode [0xB4, 0x34] = .ok (.ldyZpx 0x34) [] ∧
    decode [0xAC, 0x34, 0x12] = .ok (.ldyAbs 0x1234) [] ∧
    decode [0xBC, 0x34, 0x12] = .ok (.ldyAbsx 0x1234) [] := by decide

theorem test_decode_stores :
    decode [0x85, 0x34] = .ok (.staZp 0x34) [] ∧
    decode [0x95, 0x34] = .ok (.staZpx 0x34) [] ∧
    decode [0x8D, 0x34, 0x12] = .ok (.staAbs 0x1234) [] ∧
    decode [0x9D, 0x34, 0x12] = .ok (.staAbsx 0x1234) [] ∧
    decode [0x99, 0x34, 0x12] = .ok (.staAbsy 0x1234) [] ∧
    decode [0x81, 0x34] = .ok (.staIndx 0x34) [] ∧
    decode [0x91, 0x34] = .ok (.staIndy 0x34) [] ∧
    decode [0x86, 0x34] = .ok (.stxZp 0x34) [] ∧
    decode [0x96, 0x34] = .ok (.stxZpy 0x34) [] ∧
    decode [0x8E, 0x34, 0x12] = .ok (.stxAbs 0x1234) [] ∧
    decode [0x84, 0x34] = .ok (.styZp 0x34) [] ∧
    decode [0x94, 0x34] = .ok (.styZpx 0x34) [] ∧
    decode [0x8C, 0x34, 0x12] = .ok (.styAbs 0x1234) [] := by decide

theorem test_decode_transfers :
    decode [0xAA] = .ok .tax [] ∧
    decode [0xA8] = .ok .tay [] ∧
    decode [0x8A] = .ok .txa [] ∧
    decode [0x98] = .ok .tya [] ∧
    decode [0xBA] = .ok .tsx [] ∧
    decode [0x9A] = .ok .txs [] := by decide

theorem test_decode_stack :
    decode [0x48] = .ok .pha [] ∧
    decode [0x68] = .ok .pla [] ∧
    decode [0x08] = .ok .php [] ∧
    decode [0x28] = .ok .plp [] := by decide

theorem test_decode_control :
    decode [0x20, 0x34, 0x12] = .ok (.jsr 0x1234) [] ∧
    decode [0x60] = .ok .rts [] ∧
    decode [0x4C, 0x34, 0x12] = .ok (.jmpAbs 0x1234) [] ∧
    decode [0x6C, 0x34, 0x12] = .ok (.jmpInd 0x1234) [] := by decide

theorem test_decode_and :
    decode [0x29, 0x34] = .ok (.andImm 0x34) [] ∧
    decode [0x25, 0x34] = .ok (.andZp 0x34) [] ∧
    decode [0x35, 0x34] = .ok (.andZpx 0x34) [] ∧
    decode [0x2D, 0x34, 0x12] = .ok (.andAbs 0x1234) [] ∧
    decode [0x3D, 0x34, 0x12] = .ok (.andAbsx 0x1234) [] ∧
    decode [0x39, 0x34, 0x12] = .ok (.andAbsy 0x1234) [] ∧
    decode [0x21, 0x34] = .ok (.andIndx 0x34) [] ∧
    decode [0x31, 0x34] = .ok (.andIndy 0x34) [] := by decide

theorem test_decode_ora :
    decode [0x09, 0x34] = .ok (.oraImm 0x34) [] ∧
    decode [0x05, 0x34] = .ok (.oraZp 0x34) [] ∧
    decode [0x15, 0x34] = .ok (.oraZpx 0x34) [] ∧
    decode [0x0D, 0x34, 0x12] = .ok (.oraAbs 0x1234) [] ∧
    decode [0x1D, 0x34, 0x12] = .ok (.oraAbsx 0x1234) [] ∧
    decode [0x19, 0x34, 0x12] = .ok (.oraAbsy 0x1234) [] ∧
    decode [0x01, 0x34] = .ok (.oraIndx 0x34) [] ∧
    decode [0x11, 0x34] = .ok (.oraIndy 0x34) [] := by decide

theorem test_decode_eor :
    decode [0x49, 0x34] = .ok (.eorImm 0x34) [] ∧
    decode [0x45, 0x34] = .ok (.eorZp 0x34) [] ∧
    decode [0x55, 0x34] = .ok (.eorZpx 0x34) [] ∧
    decode [0x4D, 0x34, 0x12] = .ok (.eorAbs 0x1234) [] ∧
    decode [0x5D, 0x34, 0x12] = .ok (.eorAbsx 0x1234) [] ∧
    decode [0x59, 0x34, 0x12] = .ok (.eorAbsy 0x1234) [] ∧
    decode [0x41, 0x34] = .ok (.eorIndx 0x34) [] ∧
    decode [0x51, 0x34] = .ok (.eorIndy 0x34) [] := by decide

theorem test_decode_incdec :
    decode [0xE8] = .ok .inx [] ∧
    decode [0xC8] = .ok .iny [] ∧
    decode [0xCA] = .ok .dex [] ∧
    decode [0x88] = .ok .dey [] ∧
    decode [0xE6, 0x34] = .ok (.incZp 0x34) [] ∧
    decode [0xF6, 0x34] = .ok (.incZpx 0x34) [] ∧
    decode [0xEE, 0x34, 0x12] = .ok (.incAbs 0x1234) [] ∧
    decode [0xFE, 0x34, 0x12] = .ok (.incAbsx 0x1234) [] ∧
    decode [0xC6, 0x34] = .ok (.decZp 0x34) [] ∧
    decode [0xD6, 0x34] = .ok (.decZpx 0x34) [] ∧
    decode [0xCE, 0x34, 0x12] = .ok (.decAbs 0x1234) [] ∧
    decode [0xDE, 0x34, 0x12] = .ok (.decAbsx 0x1234) [] := by decide

theorem test_decode_bit :
    decode [0x24, 0x34] = .ok (.bitZp 0x34) [] ∧
    decode [0x2C, 0x34, 0x12] = .ok (.bitAbs 0x1234) [] := by decide

theorem test_decode_flagops :
    decode [0x18] = .ok .clc [] ∧
    decode [0x38] = .ok .sec [] ∧
    decode [0x58] = .ok .cli [] ∧
    decode [0x78] = .ok .sei [] ∧
    decode [0xB8] = .ok .clv [] ∧
    decode [0xD8] = .ok .cld [] ∧
    decode [0xF8] = .ok .sed [] ∧
    decode [0xEA] = .ok .nop [] := by decide

theorem test_decode_compares :
    decode [0xC9, 0x34] = .ok (.cmpImm 0x34) [] ∧
    decode [0xC5, 0x34] = .ok (.cmpZp 0x34) [] ∧
    decode [0xCD, 0x34, 0x12] = .ok (.cmpAbs 0x1234) [] ∧
    decode [0xE0, 0x34] = .ok (.cpxImm 0x34) [] ∧
    decode [0xE4, 0x34] = .ok (.cpxZp 0x34) [] ∧
    decode [0xEC, 0x34, 0x12] = .ok (.cpxAbs 0x1234) [] ∧
    decode [0xC0, 0x34] = .ok (.cpyImm 0x34) [] ∧
    decode [0xC4, 0x34] = .ok (.cpyZp 0x34) [] ∧
    decode [0xCC, 0x34, 0x12] = .ok (.cpyAbs 0x1234) [] := by decide

theorem test_decode_addsub :
    decode [0x69, 0x34] = .ok (.adcImm 0x34) [] ∧
    decode [0xE9, 0x34] = .ok (.sbcImm 0x34) [] := by decide

theorem test_decode_refuses_by_name :
    decode [0x00, 0x34] = .error (.unsupportedOpcode 0x00) ∧ decode [] = .error .noOpcode ∧
    decode [0xA9] = .error (.missingOperand 0xA9) ∧ decode [0x20, 0x34] = .error (.missingOperand 0x20) := by decide

theorem test_encode_low_byte_first : encode (.jsr 0x1312) = [0x20, 0x12, 0x13] := by decide

theorem test_table_word : decodeTableWord 24 0x1234AD = some (.ldaAbs 0x1234) ∧ decodeTableWord 8 0xA9 = some (.ldaImm 0) ∧
    decodeTableWord 8 0x00 = none := by decide

/-! ### One step, by the vectors of spec/95_test_vectors.md -/

/-- The start state of the vectors: reset, `PC` = 0x0200, a budget of 1. -/
def start : State := { State.reset with pc := 0x0200, cyc := 1 }

/-- The vectors' way of listing memory: bytes from an address on. -/
def at_ (s : State) (addr : Addr) (bs : List Byte) : State := s.hostWriteImage addr bs

/-- The code of a vector, at `PC`. -/
def code (s : State) (bs : List Byte) : State := s.hostWriteImage s.pc bs

/-- Packed flags of the start state. -/
def withP (s : State) (b : Byte) : State := s.hostSetFlagByte b

/-- A check on the next state of one step. -/
def after (s : State) (check : State → Bool) : Bool :=
  match step s with
  | .next t => check t
  | .fault _ => false
  | .refused _ => false

/-- V1 -/
theorem test_lda_imm_zero : after (code (withP { start with a := 0x55 } 0x80) [0xA9, 0x00]) (fun t =>
    t.a == 0x00 && t.pc == 0x0202 && t.p.toByte == 0x02 && t.cyc == -1) = true := by decide

/-- S3 -/
theorem test_lda_imm : after (code start [0xA9, 0x84]) (fun t =>
    t.a == 0x84 && t.pc == 0x0202 && t.p.toByte == 0x80 && t.cyc == -1) = true := by decide

/-- V2 -/
theorem test_lda_zpx_wraps : after (at_ (at_ (code { start with x := 0xFF } [0xB5, 0x80]) 0x007F [0x11]) 0x017F [0x22]) (fun t =>
    t.a == 0x11 && t.pc == 0x0202 && t.p.toByte == 0x00 && t.cyc == -3) = true := by decide

/-- V3 -/
theorem test_ldx_zpy_wraps : after (at_ (at_ (code { start with y := 0x20 } [0xB6, 0xF0]) 0x0010 [0x99]) 0x0110 [0x22]) (fun t =>
    t.x == 0x99 && t.pc == 0x0202 && t.p.toByte == 0x80 && t.cyc == -3) = true := by decide

/-- V4 -/
theorem test_ldy_absx : after (at_ (code { start with x := 0x05 } [0xBC, 0x00, 0x12]) 0x1205 [0xFF]) (fun t =>
    t.y == 0xFF && t.pc == 0x0203 && t.p.toByte == 0x80 && t.cyc == -3) = true := by decide

/-- V5 -/
theorem test_lda_absx_same_page : after (at_ (code { start with x := 0x0F } [0xBD, 0xF0, 0x12]) 0x12FF [0x01]) (fun t =>
    t.a == 0x01 && t.pc == 0x0203 && t.p.toByte == 0x00 && t.cyc == -3) = true := by decide

/-- V6 -/
theorem test_lda_absx_crossed : after (at_ (code { start with x := 0x10 } [0xBD, 0xF0, 0x12]) 0x1300 [0x80]) (fun t =>
    t.a == 0x80 && t.pc == 0x0203 && t.p.toByte == 0x80 && t.cyc == -4) = true := by decide

/-- V7 -/
theorem test_lda_absx_top : after (at_ (code { start with x := 0x01 } [0xBD, 0xFF, 0xFF]) 0x0000 [0x7E]) (fun t =>
    t.a == 0x7E && t.pc == 0x0203 && t.p.toByte == 0x00 && t.cyc == -4) = true := by decide

/-- V8 -/
theorem test_lda_indx : after (at_ (at_ (at_ (code { start with x := 0x04 } [0xA1, 0x20]) 0x0024 [0x74]) 0x0025 [0x20]) 0x2074 [0x5A]) (fun t =>
    t.a == 0x5A && t.pc == 0x0202 && t.p.toByte == 0x00 && t.cyc == -5) = true := by decide

/-- V9 -/
theorem test_lda_indx_pointer_ff : after (at_ (at_ (at_ (at_ (at_ (code { start with x := 0x01 } [0xA1, 0xFE]) 0x00FF [0x34]) 0x0100 [0x12]) 0x0000 [0x56]) 0x1234 [0xAA]) 0x5634 [0xBB]) (fun t =>
    t.a == 0xAA && t.pc == 0x0202 && t.p.toByte == 0x80 && t.cyc == -5) = true := by decide

/-- V10 -/
theorem test_lda_indy_same_page : after (at_ (at_ (at_ (code { start with y := 0x10 } [0xB1, 0x86]) 0x0086 [0x28]) 0x0087 [0x40]) 0x4038 [0x33]) (fun t =>
    t.a == 0x33 && t.pc == 0x0202 && t.p.toByte == 0x00 && t.cyc == -4) = true := by decide

/-- V11 -/
theorem test_lda_indy_crossed : after (at_ (at_ (at_ (code { start with y := 0x10 } [0xB1, 0x86]) 0x0086 [0xF8]) 0x0087 [0x40]) 0x4108 [0x00]) (fun t =>
    t.a == 0x00 && t.pc == 0x0202 && t.p.toByte == 0x02 && t.cyc == -5) = true := by decide

/-- V12 -/
theorem test_lda_imm_over_the_top : after (code { start with pc := 0xFFFF } [0xA9, 0x33]) (fun t =>
    t.a == 0x33 && t.pc == 0x0001 && t.p.toByte == 0x00 && t.cyc == -1) = true := by decide

/-- V99 -/
theorem test_lda_abs_over_the_top : after (at_ (code { start with pc := 0xFFFE } [0xAD, 0x34, 0x12]) 0x1234 [0x99]) (fun t =>
    t.a == 0x99 && t.pc == 0x0001 && t.p.toByte == 0x80 && t.cyc == -3) = true := by decide

/-- V13 -/
theorem test_sta_absx_no_cross : after (code { start with a := 0x77 } [0x9D, 0xF0, 0x12]) (fun t =>
    t.pc == 0x0203 && t.p.toByte == 0x00 && t.byteAt 0x12F0 == 0x77 && t.cyc == -4) = true := by decide

/-- V14 -/
theorem test_sta_absy_crossed : after (code { start with a := 0x77, y := 0x20 } [0x99, 0xF0, 0x12]) (fun t =>
    t.pc == 0x0203 && t.byteAt 0x1310 == 0x77 && t.cyc == -4) = true := by decide

/-- V15 -/
theorem test_sta_indy : after (at_ (at_ (code { start with a := 0x5A, y := 0x01 } [0x91, 0x40]) 0x0040 [0xFF]) 0x0041 [0x20]) (fun t =>
    t.pc == 0x0202 && t.byteAt 0x2100 == 0x5A && t.cyc == -5) = true := by decide

/-- V16 -/
theorem test_sta_indx : after (at_ (at_ (code { start with a := 0x5A, x := 0x02 } [0x81, 0x40]) 0x0042 [0x00]) 0x0043 [0x30]) (fun t =>
    t.pc == 0x0202 && t.byteAt 0x3000 == 0x5A && t.cyc == -5) = true := by decide

/-- V17 -/
theorem test_stx_zpy_wraps : after (code { start with x := 0xAB, y := 0x20 } [0x96, 0xF0]) (fun t =>
    t.pc == 0x0202 && t.byteAt 0x0010 == 0xAB && t.byteAt 0x0110 == 0x00 && t.cyc == -3) = true := by decide

/-- V18 -/
theorem test_sty_zpx : after (code { start with y := 0xCD, x := 0x01 } [0x94, 0x10]) (fun t =>
    t.pc == 0x0202 && t.byteAt 0x0011 == 0xCD && t.cyc == -3) = true := by decide

/-- V19 -/
theorem test_sta_zp_zero_no_flag : after (at_ (code (withP start 0x80) [0x85, 0x10]) 0x0010 [0x55]) (fun t =>
    t.pc == 0x0202 && t.p.toByte == 0x80 && t.byteAt 0x0010 == 0x00 && t.cyc == -2) = true := by decide

/-- V21 -/
theorem test_tax : after (code { start with a := 0x80 } [0xAA]) (fun t =>
    t.x == 0x80 && t.pc == 0x0201 && t.p.toByte == 0x80 && t.cyc == -1) = true := by decide

/-- V22 -/
theorem test_tay : after (code (withP start 0x80) [0xA8]) (fun t =>
    t.y == 0x00 && t.p.toByte == 0x02 && t.cyc == -1) = true := by decide

/-- V23 -/
theorem test_txa : after (code (withP { start with x := 0x7F } 0x82) [0x8A]) (fun t =>
    t.a == 0x7F && t.p.toByte == 0x00 && t.cyc == -1) = true := by decide

/-- V24 -/
theorem test_tya : after (code { start with y := 0xFF } [0x98]) (fun t =>
    t.a == 0xFF && t.p.toByte == 0x80 && t.cyc == -1) = true := by decide

/-- V25 -/
theorem test_tsx : after (code start [0xBA]) (fun t =>
    t.x == 0xFF && t.sp == 0xFF && t.p.toByte == 0x80 && t.cyc == -1) = true := by decide

/-- V26 -/
theorem test_txs : after (code start [0x9A]) (fun t =>
    t.sp == 0x00 && t.p.toByte == 0x00 && t.cyc == -1) = true := by decide

/-- V27 -/
theorem test_pha_bottom : after (code { start with a := 0x42, sp := 0x00 } [0x48]) (fun t =>
    t.sp == 0xFF && t.byteAt 0x0100 == 0x42 && t.cyc == -2) = true := by decide

/-- V28 -/
theorem test_pla_top : after (at_ (code { start with sp := 0xFF } [0x68]) 0x0100 [0x80]) (fun t =>
    t.a == 0x80 && t.sp == 0x00 && t.p.toByte == 0x80 && t.cyc == -2) = true := by decide

/-- V29 -/
theorem test_php_as_held : after (code (withP start 0x81) [0x08]) (fun t =>
    t.sp == 0xFE && t.p.toByte == 0x81 && t.byteAt 0x01FF == 0x81 && t.cyc == -2) = true := by decide

/-- V31 -/
theorem test_plp_all_flags : after (at_ (code { start with sp := 0xFE } [0x28]) 0x01FF [0xFF]) (fun t =>
    t.sp == 0xFF && t.p.toByte == 0xFF && t.cyc == -2) = true := by decide

/-- V32 -/
theorem test_jsr : after (code { start with pc := 0xFF00 } [0x20, 0x12, 0x13]) (fun t =>
    t.sp == 0xFD && t.pc == 0x1312 && t.byteAt 0x01FF == 0xFF && t.byteAt 0x01FE == 0x02 && t.cyc == -5) = true := by decide

/-- V33 -/
theorem test_jsr_sp_zero : after (code { start with sp := 0x00 } [0x20, 0x00, 0x30]) (fun t =>
    t.sp == 0xFE && t.pc == 0x3000 && t.byteAt 0x0100 == 0x02 && t.byteAt 0x01FF == 0x02 && t.cyc == -5) = true := by decide

/-- V36 -/
theorem test_rts_sp_top : after (at_ (at_ (code { start with sp := 0xFF } [0x60]) 0x0100 [0xFF]) 0x0101 [0xFF]) (fun t =>
    t.sp == 0x01 && t.pc == 0x0000 && t.cyc == -5) = true := by decide

/-- S6 -/
theorem test_rts : after (at_ (at_ (code { start with pc := 0x1312, sp := 0xFD } [0x60]) 0x01FE [0x02]) 0x01FF [0xFF]) (fun t =>
    t.sp == 0xFF && t.pc == 0xFF03 && t.cyc == -5) = true := by decide

/-- V37 -/
theorem test_jmp_abs : after (code start [0x4C, 0x00, 0x02]) (fun t =>
    t.pc == 0x0200 && t.cyc == -2) = true := by decide

/-- V39 -/
theorem test_jmp_ind_page : after (at_ (at_ (at_ (code start [0x6C, 0xFF, 0x10]) 0x10FF [0x34]) 0x1100 [0x12]) 0x1000 [0x56]) (fun t =>
    t.pc == 0x1234 && t.cyc == -4) = true := by decide

/-- V40 -/
theorem test_jmp_ind_top : after (at_ (at_ (code start [0x6C, 0xFF, 0xFF]) 0xFFFF [0x00]) 0x0000 [0x80]) (fun t =>
    t.pc == 0x8000 && t.cyc == -4) = true := by decide

/-- V41 -/
theorem test_and_imm : after (code (withP { start with a := 0xF0 } 0x41) [0x29, 0x0F]) (fun t =>
    t.a == 0x00 && t.pc == 0x0202 && t.p.toByte == 0x43 && t.cyc == -1) = true := by decide

/-- V42 -/
theorem test_and_zp : after (at_ (code { start with a := 0xCC } [0x25, 0x10]) 0x0010 [0xAA]) (fun t =>
    t.a == 0x88 && t.p.toByte == 0x80 && t.cyc == -2) = true := by decide

/-- V43 -/
theorem test_ora_imm : after (code { start with a := 0x01 } [0x09, 0x80]) (fun t =>
    t.a == 0x81 && t.p.toByte == 0x80 && t.cyc == -1) = true := by decide

/-- V44 -/
theorem test_ora_imm_zero : after (code start [0x09, 0x00]) (fun t =>
    t.a == 0x00 && t.p.toByte == 0x02 && t.cyc == -1) = true := by decide

/-- V45 -/
theorem test_eor_imm : after (code { start with a := 0xFF } [0x49, 0xFF]) (fun t =>
    t.a == 0x00 && t.p.toByte == 0x02 && t.cyc == -1) = true := by decide

/-- V46 -/
theorem test_eor_absy_crossed : after (at_ (code { start with a := 0x0F, y := 0x01 } [0x59, 0xFF, 0x12]) 0x1300 [0xF0]) (fun t =>
    t.a == 0xFF && t.pc == 0x0203 && t.p.toByte == 0x80 && t.cyc == -4) = true := by decide

/-- V47 -/
theorem test_inx_wraps : after (code { start with x := 0xFF } [0xE8]) (fun t =>
    t.x == 0x00 && t.p.toByte == 0x02 && t.cyc == -1) = true := by decide

/-- V48 -/
theorem test_iny : after (code { start with y := 0x7F } [0xC8]) (fun t =>
    t.y == 0x80 && t.p.toByte == 0x80 && t.cyc == -1) = true := by decide

/-- V49 -/
theorem test_dex : after (code { start with x := 0x01 } [0xCA]) (fun t =>
    t.x == 0x00 && t.p.toByte == 0x02 && t.cyc == -1) = true := by decide

/-- V50 -/
theorem test_dey_wraps : after (code (withP start 0x01) [0x88]) (fun t =>
    t.y == 0xFF && t.p.toByte == 0x81 && t.cyc == -1) = true := by decide

/-- V51 -/
theorem test_inc_zp : after (at_ (code start [0xE6, 0x10]) 0x0010 [0x7F]) (fun t =>
    t.pc == 0x0202 && t.p.toByte == 0x80 && t.byteAt 0x0010 == 0x80 && t.cyc == -4) = true := by decide

/-- V52 -/
theorem test_inc_zpx_wraps : after (at_ (code { start with x := 0x01 } [0xF6, 0xFF]) 0x0000 [0xFF]) (fun t =>
    t.p.toByte == 0x02 && t.byteAt 0x0000 == 0x00 && t.cyc == -5) = true := by decide

/-- V53 -/
theorem test_inc_abs : after (at_ (code start [0xEE, 0x00, 0x30]) 0x3000 [0xFE]) (fun t =>
    t.pc == 0x0203 && t.p.toByte == 0x80 && t.byteAt 0x3000 == 0xFF && t.cyc == -5) = true := by decide

/-- V54 -/
theorem test_dec_absx : after (code { start with x := 0x01 } [0xDE, 0xFF, 0x12]) (fun t =>
    t.pc == 0x0203 && t.p.toByte == 0x80 && t.byteAt 0x1300 == 0xFF && t.cyc == -6) = true := by decide

/-- V55 -/
theorem test_dec_absx_no_cross : after (at_ (code start [0xDE, 0x00, 0x12]) 0x1200 [0x01]) (fun t =>
    t.p.toByte == 0x02 && t.byteAt 0x1200 == 0x00 && t.cyc == -6) = true := by decide

/-- V56 -/
theorem test_bit_zp : after (at_ (code { start with a := 0x81 } [0x24, 0x10]) 0x0010 [0x40]) (fun t =>
    t.a == 0x81 && t.p.toByte == 0x42 && t.cyc == -2) = true := by decide

/-- V57 -/
theorem test_bit_abs : after (at_ (code { start with a := 0xFF } [0x2C, 0x00, 0x30]) 0x3000 [0xC0]) (fun t =>
    t.pc == 0x0203 && t.p.toByte == 0xC0 && t.cyc == -3) = true := by decide

/-- V59 -/
theorem test_bit_flags_from_operand : after (at_ (code start [0x24, 0x10]) 0x0010 [0xFF]) (fun t =>
    t.p.toByte == 0xC2 && t.cyc == -2) = true := by decide

/-- V60 -/
theorem test_clc : after (code (withP start 0xFF) [0x18]) (fun t =>
    t.pc == 0x0201 && t.p.toByte == 0xFE && t.cyc == -1) = true := by decide

/-- V61 -/
theorem test_sec : after (code (withP start 0x00) [0x38]) (fun t =>
    t.pc == 0x0201 && t.p.toByte == 0x01 && t.cyc == -1) = true := by decide

/-- V62 -/
theorem test_cli : after (code (withP start 0xFF) [0x58]) (fun t =>
    t.pc == 0x0201 && t.p.toByte == 0xFB && t.cyc == -1) = true := by decide

/-- V63 -/
theorem test_sei : after (code (withP start 0x00) [0x78]) (fun t =>
    t.pc == 0x0201 && t.p.toByte == 0x04 && t.cyc == -1) = true := by decide

/-- V64 -/
theorem test_clv : after (code (withP start 0xFF) [0xB8]) (fun t =>
    t.pc == 0x0201 && t.p.toByte == 0xBF && t.cyc == -1) = true := by decide

/-- V65 -/
theorem test_cld : after (code (withP start 0xFF) [0xD8]) (fun t =>
    t.pc == 0x0201 && t.p.toByte == 0xF7 && t.cyc == -1) = true := by decide

/-- V66 -/
theorem test_sed : after (code (withP start 0x00) [0xF8]) (fun t =>
    t.pc == 0x0201 && t.p.toByte == 0x08 && t.cyc == -1) = true := by decide

/-- V67 -/
theorem test_nop : after (code (withP start 0xFF) [0xEA]) (fun t =>
    t.pc == 0x0201 && t.p.toByte == 0xFF && t.cyc == -1) = true := by decide

/-- V68 -/
theorem test_cmp_greater : after (code { start with a := 0x05 } [0xC9, 0x03]) (fun t =>
    t.a == 0x05 && t.p.toByte == 0x01 && t.cyc == -1) = true := by decide

/-- V70 -/
theorem test_cmp_clears_carry : after (code (withP start 0x01) [0xC9, 0x01]) (fun t =>
    t.p.toByte == 0x80 && t.cyc == -1) = true := by decide

/-- V73 -/
theorem test_cpx_abs_equal : after (at_ (code { start with x := 0x10 } [0xEC, 0x00, 0x30]) 0x3000 [0x10]) (fun t =>
    t.pc == 0x0203 && t.p.toByte == 0x03 && t.cyc == -3) = true := by decide

/-- V74 -/
theorem test_cpy_zp_less : after (at_ (code { start with y := 0x01 } [0xC4, 0x40]) 0x0040 [0x02]) (fun t =>
    t.p.toByte == 0x80 && t.cyc == -2) = true := by decide

/-- V77 -/
theorem test_adc_carry_stays : after (code (withP start 0x01) [0x69, 0x01]) (fun t =>
    t.a == 0x02 && t.p.toByte == 0x01 && t.cyc == -1) = true := by decide

/-- V81 -/
theorem test_adc_keeps_overflow : after (code (withP { start with a := 0x80 } 0x40) [0x69, 0x80]) (fun t =>
    t.a == 0x00 && t.p.toByte == 0x43 && t.cyc == -1) = true := by decide

/-- V83 -/
theorem test_sbc_carry_stays : after (code (withP start 0x01) [0xE9, 0x01]) (fun t =>
    t.a == 0xFF && t.p.toByte == 0x81 && t.cyc == -1) = true := by decide

/-- V84 -/
theorem test_sbc_borrow_in : after (code { start with a := 0x05 } [0xE9, 0x01]) (fun t =>
    t.a == 0x03 && t.p.toByte == 0x01 && t.cyc == -1) = true := by decide

/-! ### The fault, the budget, reset -/

/-- V90 -/
theorem test_unsupported_opcode : after { start with cyc := 5 } (fun t =>
    t.fault == some (.unsupportedOpcode 0x00 0x0200) && t.pc == 0x0201 && t.cyc == 4 && t.mem == []) = true := by decide

/-- V91 -/
theorem test_unsupported_opcode_at_the_top : after (code { start with pc := 0xFFFF } [0x02]) (fun t =>
    t.fault == some (.unsupportedOpcode 0x02 0xFFFF) && t.pc == 0x0000 && t.cyc == 0) = true := by decide

/-- V92: freshly reset memory faults at its first byte. -/
theorem test_reset_memory_faults : (State.reset.hostExec 10).fault = some (.unsupportedOpcode 0x00 0xFFFC) ∧
    (State.reset.hostExec 10).pc = 0xFFFD ∧ (State.reset.hostExec 10).cyc = 9 := by decide

/-- V93, V94 -/
theorem test_no_budget : (code start [0xA9, 0x01]).hostExec 0 = { code start [0xA9, 0x01] with cyc := 0 } ∧
    ((code start [0xA9, 0x01]).hostExec (-3)).cyc = -3 := by decide

/-- V95: the greatest overshoot. -/
theorem test_overshoot : ((code start [0xFE, 0x00, 0x30]).hostExec 1).cyc = -6 ∧
    ((code start [0xFE, 0x00, 0x30]).hostExec 1).byteAt 0x3000 = 0x01 := by decide

/-- V38: PHP then PLP. -/
theorem test_php_plp : (((withP (code start [0x08, 0x28]) 0xCB).hostExec 4).p.toByte = 0xCB) ∧
    ((withP (code start [0x08, 0x28]) 0xCB).hostExec 4).cyc = -2 := by decide

/-- V20: a store into the next opcode byte. -/
theorem test_self_modifying : ((code { start with a := 0xEA } [0x8D, 0x03, 0x02, 0x00]).hostExec 5).pc = 0x0204 ∧
    ((code { start with a := 0xEA } [0x8D, 0x03, 0x02, 0x00]).hostExec 5).cyc = -1 := by decide

/-- A state with every register away from its reset value. -/
def dirty : State :=
  { start with sp := 0x10, a := 0xAA, x := 0xBB, y := 0xCC, cyc := -3, fault := some (.unsupportedOpcode 2 2) }

/-- V100: reset from an arbitrary state keeps the budget. -/
theorem test_reset_from_anywhere :
    (at_ (withP dirty 0xFF) 0x0010 [0x84]).hostReset = { State.reset with cyc := -3 } := by decide

/-- A write of the reset byte leaves no cell, so equal memories are equal data. -/
theorem test_memory_is_canonical : at_ (at_ start 0x0010 [0x84]) 0x0010 [0x00] = start ∧
    at_ (at_ start 0x0010 [1]) 0x0005 [2] = at_ (at_ start 0x0005 [2]) 0x0010 [1] := by decide

/-- The word of a table row, placed after reset, is what the very next step runs. -/
theorem test_placed_word_runs :
    step (State.reset.withFetchWord 8 0xA9) = exec (.ldaImm 0) (State.reset.withFetchWord 8 0xA9) ∧
    step (State.reset.withFetchWord 24 0x13124C) = exec (.jmpAbs 0x1312) (State.reset.withFetchWord 24 0x13124C) :=
  ⟨rfl, rfl⟩

/-! ### Witnesses: the hypotheses of each statement can be met together -/

/-- A running state with one NOP at `PC`. -/
def nopState : State := code start [0xEA]

/-- A running state at the top of memory, where an unsupported byte stands. -/
def badState : State := code { start with pc := 0xFFFF } [0x02]

theorem witness_decode_of_encode : (Instr.ldaAbs 0x1234).wf = true := by decide
theorem witness_encode_of_decode : decode [0xAD, 0x34, 0x12, 0x56] = .ok (.ldaAbs 0x1234) [0x56] := by decide
theorem witness_length_supported : decode [0xEA, 0x00] = .ok .nop [0x00] := by decide
theorem witness_length_unsupported : lookup 0x00 = none ∧ lookup 0xFF = none := by decide
theorem witness_step_runs : nopState.Live ∧ decode (Claims.threeBytes nopState) = .ok .nop [0, 0] := by decide
theorem witness_spent_budget : State.reset.EndedNormally ∧ ({ start with cyc := -1 } : State).EndedNormally := by decide
theorem witness_latched_fault :
    ({ start with fault := some (.unsupportedOpcode 2 3) } : State).fault = some (.unsupportedOpcode 2 3) := rfl
theorem witness_unsupported_taken : badState.Live ∧ badState.byteAt badState.pc ∈ Claims.unsupported := by decide
theorem witness_fault_precise : step badState = .next badState.takeUnsupported ∧ badState.takeUnsupported.fault ≠ none :=
  ⟨rfl, by decide⟩
theorem witness_step_keeps_invariant :
    nopState.Inv ∧ step nopState = exec .nop nopState ∧ badState.Inv ∧ step badState = .next badState.takeUnsupported :=
  ⟨by decide, rfl, by decide, rfl⟩
theorem witness_carry_boundary : (0xFF : Nat) < 0x100 ∧ (0xFF : Nat) ≤ 0xFF := by decide
theorem witness_canonical_memory : nopState.mem.wf = true ∧ nopState.mem ≠ [] := by decide
theorem witness_adc_sum : (256 : Nat) = ({ start with a := 0xFF } : State).a.toNat + (0x01 : Byte).toNat +
    (if start.p.c then 1 else 0) := by decide
theorem witness_sbc_take : (1 : Nat) = (0x00 : Byte).toNat + (if start.p.c then 0 else 1) := by decide
theorem witness_accumulator_written : Instr.mnemonic .nop ∉ Claims.writesA ∧ ∃ t, exec .nop start = .next t :=
  ⟨by decide, _, rfl⟩
theorem witness_accumulator_read : Instr.mnemonic (.ldaZp 0x10) ∉ Claims.readsA ∧ ∃ t, exec (.ldaZp 0x10) start = .next t :=
  ⟨by decide, _, rfl⟩
theorem witness_index_written : Instr.mnemonic .tax ∉ Claims.writesY ∧ Instr.mnemonic .tay ∉ Claims.writesX ∧
    (∃ t, exec .tax start = .next t) ∧ ∃ t, exec .tay start = .next t :=
  ⟨by decide, by decide, ⟨_, rfl⟩, _, rfl⟩
theorem witness_x_read : Instr.mnemonic (.ldaAbsy 0x1234) ∉ Claims.readsX ∧
    (Instr.ldaAbsy 0x1234).operand.mode ∉ Claims.modesX ∧ ∃ t, exec (.ldaAbsy 0x1234) start = .next t :=
  ⟨by decide, by decide, _, rfl⟩
theorem witness_y_read : Instr.mnemonic (.ldaAbsx 0x1234) ∉ Claims.readsY ∧
    (Instr.ldaAbsx 0x1234).operand.mode ∉ Claims.modesY ∧ ∃ t, exec (.ldaAbsx 0x1234) start = .next t :=
  ⟨by decide, by decide, _, rfl⟩
theorem witness_stack_pointer : Instr.mnemonic .tax ∉ Claims.writesSP ∧ Instr.mnemonic .tax ≠ .tsx ∧
    ∃ t, exec .tax start = .next t := ⟨by decide, by decide, _, rfl⟩
theorem witness_flags_written : FlagName.c ∉ Claims.flagsOf (Instr.mnemonic (.bitZp 0x10)) ∧
    ∃ t, exec (.bitZp 0x10) start = .next t := ⟨by decide, _, rfl⟩
theorem witness_flags_read : Instr.mnemonic (.cmpImm 1) ≠ .php ∧
    (FlagName.c = .c → Instr.mnemonic (.cmpImm 1) ≠ .adc ∧ Instr.mnemonic (.cmpImm 1) ≠ .sbc) ∧
    ∃ t, exec (.cmpImm 1) start = .next t := ⟨by decide, by decide, _, rfl⟩
theorem witness_pc_passes : Instr.mnemonic (.staAbs 0x1234) ∉ Claims.jumps ∧
    ∃ t, exec (.staAbs 0x1234) { start with pc := 0xFFFE } = .next t := ⟨by decide, _, rfl⟩
theorem witness_pc_read : Instr.mnemonic (.jmpAbs 0x1234) ≠ .jsr ∧ ∃ t, exec (.jmpAbs 0x1234) start = .next t :=
  ⟨by decide, _, rfl⟩
theorem witness_memory_frame : (0x1235 : Addr) ∉ Claims.storesTo (.staAbs 0x1234) start ∧
    ∃ t, exec (.staAbs 0x1234) start = .next t := ⟨by decide, _, rfl⟩
theorem witness_budget_and_latch : ∃ t, exec (.incAbsx 0x12FF) start = .next t := ⟨_, rfl⟩
theorem witness_cost_of_row : (∃ row, lookup (Instr.opcode (.ldaAbsx 0x12FF)) = some row ∧ row.pagePenalty = true) ∧
    Claims.penalty { start with x := 1 } (.absx 0x12FF) = 1 ∧
    ∃ t, exec (.ldaAbsx 0x12FF) { start with x := 1 } = .next t := ⟨⟨_, rfl, rfl⟩, by decide, _, rfl⟩
theorem witness_rts_after_jsr : ({ start with sp := 0x00 } : State).mem.wf = true := by decide
theorem witness_next_fetch : nopState.mem.wf = true ∧
    ((0x0203 : Addr), start.a) ∈ Claims.stores (.staAbs 0x0203) nopState ∧
    ((0x0203 : Addr), (0x01 : Byte)) ∈ Claims.stores (.incAbs 0x0203) nopState ∧
    ((0x01FF : Addr), (0x02 : Byte)) ∈ Claims.stores (.jsr 0x01FF) (nopState.setSp 0xFF) := by decide
theorem witness_registers_listed : Instr.mnemonic (.andImm 0xFF) ∈ Claims.writesA ∧
    Instr.mnemonic (.staIndy 0) ∈ Claims.readsA ∧ Instr.mnemonic .tsx ∈ Claims.writesX ∧
    Instr.mnemonic .dey ∈ Claims.writesY ∧ (Instr.staIndx 0).operand.mode ∈ Claims.modesX ∧
    Instr.mnemonic (.cpxImm 0) ∈ Claims.readsX ∧ Instr.mnemonic (.cpyImm 0) ∈ Claims.readsY ∧ (Instr.staIndy 0).operand.mode ∈ Claims.modesY := by decide
theorem witness_overshoot_bound : -6 ≤ badState.cyc ∧ -6 ≤ ({ start with cyc := -6 } : State).cyc ∧
    step badState = .next badState.takeUnsupported := ⟨by decide, by decide, rfl⟩
theorem witness_overshoot : (0 : Int) < 1 ∧ (nopState.hostExec 1).fault = none := by decide
theorem witness_no_budget : (0 : Int) ≤ 0 ∧ (-3 : Int) ≤ 0 := by decide
theorem witness_faulted_run : (badState.hostExec 1).fault = some (.unsupportedOpcode 0x02 0xFFFF) := by decide

end Sys2Proof.Tests
end

section
/-! The next state of every instruction as one record: the operand is resolved first, then each field of the state is
one function of the mnemonic. Proofs about which instruction reads or writes a field speak of these functions. -/

namespace Sys2Proof.Machine

/-! ### What an operand gives -/

/-- What an operand gives its instruction: the byte it stands for, the address it names (of data, or a jump's target),
and what an instruction that reads or stores through it costs in all. A part that an operand does not have is 0. -/
structure Access where
  byte : Byte
  addr : Addr
  readCycles : Nat
  writeCycles : Nat

/-- Resolving an operand (R63 to R73, R182). -/
def State.access (s : State) : Operand → Access
  | .none => { byte := 0, addr := 0, readCycles := 2, writeCycles := 0 }
  | .imm n => { byte := n, addr := 0, readCycles := 2, writeCycles := 0 }
  | .ea m =>
    { byte := s.byteAt (s.effAddr m)
      addr := s.effAddr m
      readCycles := m.mode.length + s.modeCycles .read m + 1
      writeCycles := m.mode.length + s.modeCycles .write m + 1 }
  | .ind w => { byte := 0, addr := word (s.byteAt (w + 1)) (s.byteAt w), readCycles := 5, writeCycles := 0 }

/-- An operand depends on the index registers and the memory image alone. -/
theorem State.access_congr {s t : State} (hx : s.x = t.x) (hy : s.y = t.y) (hm : s.mem = t.mem) (o : Operand) :
    s.access o = t.access o := by
  cases o <;> simp only [State.access, State.byteAt_congr hm, State.effAddr_congr hx hy hm,
    State.modeCycles_congr hx hy hm]

/-- The state in which an instruction acts on the operand it has read. -/
def State.fetched (s : State) (o : Operand) : State :=
  (s.setPc (s.pc + BitVec.ofNat 16 o.mode.length)).tick (s.access o).readCycles

theorem State.consume_tick (s : State) (n c : Nat) :
    (s.consume n).tick c = (s.setPc (s.pc + BitVec.ofNat 16 n)).tick (n + c) := by
  rw [State.consume_eq, State.tick_tick]

theorem State.actOn_imm (s : State) (n : Byte) (act : State → Byte → State) :
    s.actOn (.imm n) act = act (s.fetched (.imm n)) (s.access (.imm n)).byte := by
  rw [State.actOn, State.withImm_eq, State.consume_eq]; rfl

theorem State.actOn_ea (s : State) (m : EaMode) (act : State → Byte → State) :
    s.actOn (.ea m) act = act (s.fetched (.ea m)) (s.access (.ea m)).byte := by
  rw [State.actOn, State.withOperand_eq, State.readDone, State.consume_tick]; rfl

theorem State.withTick_fetched (s : State) (act : State → State) : s.withTick act = act (s.fetched .none) :=
  s.withTick_eq act

/-! ### The fields of the next state -/

/-- The 8-bit result that an instruction puts into its register or its byte of memory, and that Zero and Negative are
taken from. -/
def State.result (s : State) (k : Access) : Mnemonic → Byte
  | .lda | .ldx | .ldy => k.byte
  | .tax | .tay => s.a
  | .txa => s.x
  | .tya => s.y
  | .tsx => s.sp
  | .pla => s.byteAt (stackAddr (s.sp + 1))
  | .and => s.a &&& k.byte
  | .ora => s.a ||| k.byte
  | .eor => s.a ^^^ k.byte
  | .inx => s.x + 1
  | .dex => s.x - 1
  | .iny => s.y + 1
  | .dey => s.y - 1
  | .inc => k.byte + 1
  | .dec => k.byte - 1
  | .adc => BitVec.ofNat 8 (s.carrySum k.byte)
  | .sbc => BitVec.ofNat 8 (s.carrySum (~~~k.byte))
  | _ => 0

/-- What an instruction makes of a flag register `p` (R16). -/
def State.flagsAfter (s : State) (k : Access) (m : Mnemonic) (p : Flags) : Flags :=
  match m with
  | .sta | .stx | .sty | .txs | .pha | .php | .jsr | .rts | .jmp | .nop => p
  | .cmp => p.compare s.a k.byte
  | .cpx => p.compare s.x k.byte
  | .cpy => p.compare s.y k.byte
  | .bit => p.bitTest s.a k.byte
  | .adc => (p.setZN (s.result k .adc)).setCarryIfOverflow (s.carrySum k.byte)
  | .sbc => (p.setZN (s.result k .sbc)).setCarryIfOverflow (s.carrySum (~~~k.byte))
  | .plp => Flags.fromByte (s.byteAt (stackAddr (s.sp + 1)))
  | .clc => p.set .c false
  | .sec => p.set .c true
  | .cli => p.set .i false
  | .sei => p.set .i true
  | .clv => p.set .v false
  | .cld => p.set .d false
  | .sed => p.set .d true
  | m => p.setZN (s.result k m)

/-- The stack pointer after an instruction (R13). -/
def State.nextSp (s : State) : Mnemonic → Byte
  | .txs => s.x
  | .pha | .php => s.sp - 1
  | .pla | .plp => s.sp + 1
  | .jsr => s.sp - 2
  | .rts => s.sp + 2
  | _ => s.sp

/-- The program counter after an instruction (R14). -/
def State.nextPc (s : State) (k : Access) (o : Operand) : Mnemonic → Addr
  | .jsr | .jmp => k.addr
  | .rts => word (s.byteAt (stackAddr (s.sp + 2))) (s.byteAt (stackAddr (s.sp + 1))) + 1
  | _ => s.pc + BitVec.ofNat 16 o.mode.length

/-- The memory image after an instruction (R44). -/
def State.nextMem (s : State) (k : Access) : Mnemonic → Memory
  | .sta => s.mem.write k.addr.toNat s.a
  | .stx => s.mem.write k.addr.toNat s.x
  | .sty => s.mem.write k.addr.toNat s.y
  | .inc => s.mem.write k.addr.toNat (s.result k .inc)
  | .dec => s.mem.write k.addr.toNat (s.result k .dec)
  | .pha => s.mem.write (stackAddr s.sp).toNat s.a
  | .php => s.mem.write (stackAddr s.sp).toNat s.p.toByte
  | .jsr => (s.mem.write (stackAddr s.sp).toNat (hiByte (s.pc + 2))).write (stackAddr (s.sp - 1)).toNat
      (loByte (s.pc + 2))
  | _ => s.mem

/-- The cycles an instruction charges (R182). -/
def Access.cost (k : Access) (o : Operand) : Mnemonic → Nat
  | .sta | .stx | .sty => k.writeCycles
  | .inc | .dec => k.writeCycles + 2
  | .pha | .php | .pla | .plp => 3
  | .jsr | .rts => 6
  | .jmp => if o.mode = .ind then 5 else 3
  | _ => k.readCycles

/-- The next state of an instruction whose operand `o` gives `k`. -/
def State.next (s : State) (k : Access) (o : Operand) (m : Mnemonic) : State :=
  { pc := s.nextPc k o m
    sp := s.nextSp m
    a := if m ∈ Claims.writesA then s.result k m else s.a
    x := if m ∈ Claims.writesX then s.result k m else s.x
    y := if m ∈ Claims.writesY then s.result k m else s.y
    p := s.flagsAfter k m s.p
    cyc := s.cyc - k.cost o m
    fault := s.fault
    mem := s.nextMem k m }

/-! ### The record is what `exec` answers -/

/-- A store writes its byte at the operand's address, for the store's cycles. -/
theorem State.storeThrough_ea (s : State) (m : EaMode) (v : Byte) :
    s.storeThrough (.ea m) v =
      ((s.setPc (s.pc + BitVec.ofNat 16 m.mode.length)).setMem (s.mem.write (s.access (.ea m)).addr.toNat v)).tick
        (s.access (.ea m)).writeCycles := by
  rw [State.storeThrough, State.storeByte_eq, State.writeReady, State.consume_tick]
  apply State.eq_of_fields <;> simp [State.access]
  omega

/-- A read-modify-write is a store two cycles dearer, with Zero and Negative from the byte stored. -/
theorem State.modifyThrough_ea (s : State) (m : EaMode) (f : Byte → Byte) :
    s.modifyThrough (.ea m) f =
      ((s.storeThrough (.ea m) (f (s.access (.ea m)).byte)).tick 2).setP (s.p.setZN (f (s.access (.ea m)).byte)) := by
  rw [State.modifyThrough, State.modifyByte_eq, State.storeThrough, State.storeByte_eq]
  apply State.eq_of_fields <;> simp [State.access]
  omega

theorem State.pushInstr_eq (s : State) (v : Byte) :
    s.pushInstr v = (((s.setPc (s.pc + 1)).setMem (s.mem.write (stackAddr s.sp).toNat v)).setSp (s.sp - 1)).tick 3 := by
  apply State.eq_of_fields <;> simp [State.pushInstr, Mode.length]
  omega

theorem State.pullInstr_eq (s : State) (act : State → Byte → State) :
    s.pullInstr act =
      act (((s.setPc (s.pc + 1)).setSp (s.sp + 1)).tick 3) (s.byteAt (stackAddr (s.sp + 1))) := by
  simp only [State.pullInstr, State.pull_fst, State.pull_snd, State.tick_tick, State.consume_eq]
  congr 1
  apply State.eq_of_fields <;> simp [Mode.length, pullInternalCycles]
  omega

theorem State.callTo_eq (s : State) (w : Addr) :
    s.callTo w = (((s.setPc w).setSp (s.sp - 2)).setMem
      ((s.mem.write (stackAddr s.sp).toNat (hiByte (s.pc + 2))).write (stackAddr (s.sp - 1)).toNat
        (loByte (s.pc + 2)))).tick 6 := by
  have hret : s.pc + 3#16 - 1#16 = s.pc + 2#16 := by bv_omega
  apply State.eq_of_fields <;> simp [State.callTo, hret]
  · bv_omega
  · omega

theorem State.returnFrom_eq (s : State) :
    s.returnFrom = ((s.setPc (word (s.byteAt (stackAddr (s.sp + 2))) (s.byteAt (stackAddr (s.sp + 1))) + 1)).setSp
      (s.sp + 2)).tick 6 := by
  have hsp : s.sp + 1#8 + 1#8 = s.sp + 2#8 := by bv_omega
  apply State.eq_of_fields <;> simp [State.returnFrom, hsp]
  omega

theorem State.jumpThrough_abs (s : State) (w : Addr) : s.jumpThrough (.ea (.abs w)) = (s.setPc w).tick 3 := by
  rw [State.jumpThrough, State.consume_eq]; rfl

theorem State.jumpThrough_ind (s : State) (w : Addr) :
    s.jumpThrough (.ind w) = (s.setPc (word (s.byteAt (w + 1)) (s.byteAt w))).tick 5 := by
  apply State.eq_of_fields <;> simp [State.jumpThrough]
  omega

theorem State.effect_eq_next {o : Operand} {m : Mnemonic} (h : operandFits o m = true) (s : State) :
    s.effect o m = s.next (s.access o) o m := by
  cases m with
  | lda | ldx | ldy | and | ora | eor | bit | cmp | cpx | cpy | adc | sbc =>
    cases o with
    | imm n => simp only [State.effect, State.actOn_imm]; rfl
    | ea m => simp only [State.effect, State.actOn_ea]; rfl
    | none | ind w => cases h
  | tax | tay | txa | tya | tsx | txs | inx | iny | dex | dey | clc | sec | cli | sei | clv | cld | sed | nop =>
    cases o with
    | none => simp only [State.effect, State.flagInstr, State.withTick_fetched]; rfl
    | ea m => cases m <;> cases h
    | imm n | ind w => cases h
  | pha | php | pla | plp =>
    cases o with
    | none => simp only [State.effect, State.pushInstr_eq, State.pullInstr_eq]; rfl
    | ea m => cases m <;> cases h
    | imm n | ind w => cases h
  | sta | stx | sty =>
    cases o with
    | ea m => simp only [State.effect, State.storeThrough_ea]; rfl
    | none | imm n | ind w => cases h
  | inc | dec =>
    cases o with
    | ea m => simp only [State.effect, State.modifyThrough_ea, State.storeThrough_ea, State.tick_tick]; rfl
    | none | imm n | ind w => cases h
  | rts => simp only [State.effect, State.returnFrom_eq]; rfl
  | jsr =>
    cases o with
    | ea m =>
      cases m with
      | abs w => simp only [State.effect, State.callTo_eq]; rfl
      | _ => cases h
    | none | imm n | ind w => cases h
  | jmp =>
    cases o with
    | ea m =>
      cases m with
      | abs w => simp only [State.effect, State.jumpThrough_abs]; rfl
      | _ => cases h
    | ind w => simp only [State.effect, State.jumpThrough_ind]; rfl
    | none | imm n => cases h

/-- Every instruction answers the record of its operand and its mnemonic. -/
theorem exec_eq_next (i : Instr) (s : State) :
    exec i s = .next (s.next (s.access i.operand) i.operand i.mnemonic) := by
  rw [exec_eq_effect, State.effect_eq_next (operandFits_instr i)]

theorem eq_next_of_exec {i : Instr} {s t : State} (h : exec i s = .next t) :
    t = s.next (s.access i.operand) i.operand i.mnemonic := by
  rw [eq_effect_of_exec h, State.effect_eq_next (operandFits_instr i)]

end Sys2Proof.Machine
end

section
/-! What an instruction and a step keep: the canonical form of memory, the truthful latch and the bounds on the budget; and
the runs that repeat a step. -/

namespace Sys2Proof.Machine

/-- Every instruction has its row in the table, with its mnemonic, its mode and its length. -/
theorem encodingShape (i : Instr) : Laws.EncodingShape.Statement i := by
  cases i <;> exact ⟨_, rfl, rfl, rfl, rfl⟩

/-! ### Memory -/

theorem State.nextMem_wf {s : State} (k : Access) (m : Mnemonic) (h : s.mem.wf = true) : (s.nextMem k m).wf = true := by
  cases m with
  | sta | stx | sty | inc | dec | pha | php => exact Memory.wf_write _ _ h
  | jsr => exact Memory.wf_write _ _ (Memory.wf_write _ _ h)
  | _ => exact h

/-! ### Cost -/

theorem State.modeCycles_read_bound (s : State) (m : EaMode) :
    2 ≤ m.mode.length + s.modeCycles .read m ∧ m.mode.length + s.modeCycles .read m ≤ 5 := by
  cases m with
  | absx | absy | indy =>
    simp only [State.modeCycles, EaMode.mode, Mode.length]
    split <;> omega
  | _ => simp [State.modeCycles, EaMode.mode, Mode.length]

theorem State.access_readCycles_bounds (s : State) (o : Operand) :
    2 ≤ (s.access o).readCycles ∧ (s.access o).readCycles ≤ 6 := by
  cases o with
  | ea m => have := s.modeCycles_read_bound m; simp only [State.access]; omega
  | _ => simp [State.access]

/-- A store's cycles are fixed by its mode: the index cycle is always charged (R182). -/
theorem State.access_writeCycles (s : State) (m : EaMode) : (s.access (.ea m)).writeCycles = Claims.writeCost m := by
  cases m <;> rfl

theorem writeCost_bounds (m : EaMode) : 3 ≤ Claims.writeCost m ∧ Claims.writeCost m ≤ 6 := by
  cases m <;> simp [Claims.writeCost]

/-- The modes of the read-modify-writes (R119, R120). -/
theorem mode_of_modify {i : Instr} (h : i.mnemonic = .inc ∨ i.mnemonic = .dec) :
    i.operand.mode ∈ [Mode.zp, .zpx, .abs, .absx] := by
  have htable : ∀ row ∈ instrTable, row.mnemonic = .inc ∨ row.mnemonic = .dec →
      row.mode ∈ [Mode.zp, .zpx, .abs, .absx] := by decide
  obtain ⟨row, hl, hm, hmode, -⟩ := encodingShape i
  rw [← hmode]
  exact htable row (lookup_some hl).1 (hm ▸ h)

/-- Every instruction charges 2 to 7 cycles. -/
theorem State.cost_bounds (s : State) (i : Instr) :
    2 ≤ (s.access i.operand).cost i.operand i.mnemonic ∧ (s.access i.operand).cost i.operand i.mnemonic ≤ 7 := by
  have hfit := operandFits_instr i
  have hmodify := @mode_of_modify i
  generalize i.operand = o, i.mnemonic = m at *
  cases m with
  | sta | stx | sty =>
    cases o with
    | ea m => have := writeCost_bounds m; rw [Access.cost, s.access_writeCycles]; omega
    | none | imm n | ind w => cases hfit
  | inc | dec =>
    cases o with
    | ea m =>
      rw [Access.cost, s.access_writeCycles]
      cases m with
      | zp | zpx | abs | absx => simp [Claims.writeCost]
      | _ => exact absurd (hmodify (by decide)) (by simp [Operand.mode, EaMode.mode])
    | none | imm n | ind w => cases hfit
  | pha | php | pla | plp | jsr | rts => simp [Access.cost]
  | jmp => simp only [Access.cost]; split <;> omega
  | _ => have := s.access_readCycles_bounds o; simp only [Access.cost]; omega

/-! ### A step -/

/-- What a step does to the budget: a spent one is held, a live one pays 1 to 7 cycles. -/
theorem step_cyc {s t : State} (h : step s = .next t) :
    (s.cyc ≤ 0 ∧ t = s) ∨ (0 < s.cyc ∧ s.cyc - 7 ≤ t.cyc ∧ t.cyc < s.cyc) := by
  obtain ⟨-, hheld | ⟨hc, i, rest, -, he⟩ | ⟨hc, e, -, rfl⟩⟩ := step_next_cases h
  · exact .inl hheld
  · obtain rfl := eq_next_of_exec he
    have := s.cost_bounds i
    exact .inr ⟨hc, by simp only [State.next]; omega, by simp only [State.next]; omega⟩
  · exact .inr ⟨hc, by simp, by simp⟩

/-- No fault, no stop: a step from an unlatched state answers a next state. -/
theorem step_next_of_unlatched {s : State} (h : s.fault = none) : ∃ t, step s = .next t := by
  by_cases hc : s.cyc ≤ 0
  · exact ⟨s, by simp [step, h, hc]⟩
  · cases hd : s.decodeAt with
    | ok i rest => exact ⟨_, (step_of_decodeAt h (by omega) hd).trans (exec_eq_next i s)⟩
    | error e => exact ⟨_, step_of_decodeAt_error h (by omega) hd⟩

/-- A step keeps memory in canonical form. -/
theorem step_keeps_mem_wf {s t : State} (hs : s.mem.wf = true) (h : step s = .next t) : t.mem.wf = true := by
  obtain ⟨-, ⟨-, rfl⟩ | ⟨-, i, rest, -, he⟩ | ⟨-, e, -, rfl⟩⟩ := step_next_cases h
  · exact hs
  · obtain rfl := eq_next_of_exec he
    exact State.nextMem_wf _ _ hs
  · exact hs

/-- An unlatched state has a truthful latch. -/
theorem State.latchOk_of_unlatched {s : State} (h : s.fault = none) : s.latchOk = true := by
  rw [State.latchOk, h]

/-- A step leaves a truthful latch, whatever it started from. -/
theorem step_latchOk {s t : State} (h : step s = .next t) : t.latchOk = true := by
  obtain ⟨hf, ⟨-, rfl⟩ | ⟨-, i, rest, -, he⟩ | ⟨-, e, hd, rfl⟩⟩ := step_next_cases h
  · exact State.latchOk_of_unlatched hf
  · obtain rfl := eq_next_of_exec he
    exact State.latchOk_of_unlatched hf
  · simp [State.latchOk, State.decodeAt_error hd]

/-! ### Runs -/

/-- What holds at the start of a run and is kept by every step holds at its end. -/
theorem runLoop_induction {P : State → Prop} (hstep : ∀ s t, P s → step s = .next t → P t) (n : Nat) {s : State}
    (hs : P s) : P (runLoop n s) := by
  induction n generalizing s with
  | zero => exact hs
  | succ n ih =>
    rw [runLoop]
    split
    · exact ih (hstep _ _ hs ‹_›)
    · exact hs
    · exact hs

/-- As many turns of the loop as there are cycles in the budget end the run. -/
theorem runLoop_ended (n : Nat) {s : State} (h : s.cyc ≤ n) : (runLoop n s).Ended := by
  induction n generalizing s with
  | zero => exact .inr (by simpa [runLoop] using h)
  | succ n ih =>
    by_cases hf : s.fault = none
    · obtain ⟨t, ht⟩ := step_next_of_unlatched hf
      rw [runLoop, ht]
      apply ih
      obtain ⟨hc, rfl⟩ | ⟨-, -, hlt⟩ := step_cyc ht <;> omega
    · refine .inl ?_
      obtain ⟨f, hf'⟩ := Option.ne_none_iff_exists'.mp hf
      rw [runLoop, step, hf']
      exact hf

end Sys2Proof.Machine
end

section
/-! The flag register: its packed byte, and how each flag computation treats a flag that is set beforehand. -/

namespace Sys2Proof.Machine

/-! ### The packed byte -/

/-- The packed byte grows one low bit at a time. -/
theorem Flags.toByte_eq_concat (p : Flags) :
    p.toByte = (((((((BitVec.ofBool p.n).concat p.v).concat p.u).concat p.b).concat p.d).concat p.i).concat p.z).concat
      p.c := rfl

/-- The packed byte holds each flag at its bit (R15). -/
theorem Flags.toByte_getLsbD (p : Flags) (f : FlagName) : p.toByte.getLsbD (Claims.flagBit f) = p.get f := by
  rw [Flags.toByte_eq_concat]
  cases f <;> simp only [Claims.flagBit, Flags.get, BitVec.getLsbD_concat] <;> simp

/-- Unpacking takes each flag from its bit (R15). -/
theorem Flags.fromByte_get (b : Byte) (f : FlagName) : (Flags.fromByte b).get f = b.getLsbD (Claims.flagBit f) := by
  cases f <;> rfl

/-- A flag register is its eight flags. -/
theorem Flags.ext_get {p q : Flags} (h : ∀ f, p.get f = q.get f) : p = q := by
  cases p; cases q
  have hc := h .c; have hz := h .z; have hi := h .i; have hd := h .d
  have hb := h .b; have hu := h .u; have hv := h .v; have hn := h .n
  simp_all [Flags.get]

theorem Flags.fromByte_toByte (p : Flags) : Flags.fromByte p.toByte = p :=
  Flags.ext_get fun f => by rw [Flags.fromByte_get, Flags.toByte_getLsbD]

/-- Every bit of a byte is some flag's. -/
theorem exists_flagBit {n : Nat} (h : n < 8) : ∃ f, Claims.flagBit f = n := by
  have hall : ∀ k : Fin 8, ∃ f ∈ [FlagName.c, .z, .i, .d, .b, .u, .v, .n], Claims.flagBit f = k := by decide
  obtain ⟨f, -, hf⟩ := hall ⟨n, h⟩
  exact ⟨f, hf⟩

theorem Flags.toByte_fromByte (b : Byte) : (Flags.fromByte b).toByte = b := by
  apply BitVec.eq_of_getLsbD_eq
  intro n hn
  obtain ⟨f, rfl⟩ := exists_flagBit hn
  rw [Flags.toByte_getLsbD, Flags.fromByte_get]

/-! ### Setting one flag -/

theorem Flags.set_get_self (p : Flags) (f : FlagName) : p.set f (p.get f) = p := by
  cases f <;> rfl

theorem Flags.set_c {f : FlagName} (p : Flags) (on : Bool) (h : f ≠ .c) : (p.set f on).c = p.c :=
  Flags.get_set_other (g := .c) p on h.symm

/-- A change of the flag register assigns the flags in `fs` and passes the others on: a flag set beforehand comes out as
assigned when it is in `fs`, and as set when it is not. -/
def Flags.Assigns (fs : List FlagName) (change : Flags → Flags) : Prop :=
  ∀ (p : Flags) (f : FlagName) (on : Bool),
    change (p.set f on) = (change p).set f (if f ∈ fs then (change p).get f else on)

theorem Flags.assigns_nothing : Flags.Assigns [] id := fun _ _ _ => rfl

theorem Flags.assigns_setZN (v : Byte) : Flags.Assigns [.z, .n] (·.setZN v) := by
  intro p f on; cases f <;> rfl

theorem Flags.assigns_compare (reg m : Byte) : Flags.Assigns [.c, .z, .n] (·.compare reg m) := by
  intro p f on; cases f <;> rfl

theorem Flags.assigns_bitTest (acc m : Byte) : Flags.Assigns [.z, .v, .n] (·.bitTest acc m) := by
  intro p f on; cases f <;> rfl

theorem Flags.assigns_fromByte (b : Byte) :
    Flags.Assigns [.c, .z, .i, .d, .b, .u, .v, .n] fun _ => Flags.fromByte b := by
  intro p f on; cases f <;> rfl

theorem Flags.assigns_set (g : FlagName) (v : Bool) : Flags.Assigns [g] (·.set g v) := by
  intro p f on; cases f <;> cases g <;> rfl

/-- SetCarryIfOverflow after SetZN, of a sum: the flags other than Carry are assigned or passed on. Carry is not assigned
but kept or set (R19). -/
theorem Flags.sum_set (p : Flags) (v : Byte) (sum : Nat) {f : FlagName} (hf : f ≠ .c) (on : Bool) :
    ((p.set f on).setZN v).setCarryIfOverflow sum =
      ((p.setZN v).setCarryIfOverflow sum).set f
        (if f ∈ [FlagName.c, .z, .n] then ((p.setZN v).setCarryIfOverflow sum).get f else on) := by
  simp only [Flags.setCarryIfOverflow_eq]
  cases f with
  | c => exact absurd rfl hf
  | _ => rfl

/-- Every instruction but ADC and SBC assigns the flags that R16 lists against it, and no other. -/
theorem State.flagsAfter_assigns (s : State) (k : Access) {m : Mnemonic} (hadc : m ≠ .adc) (hsbc : m ≠ .sbc) :
    Flags.Assigns (Claims.flagsOf m) (s.flagsAfter k m) := by
  cases m with
  | adc => exact absurd rfl hadc
  | sbc => exact absurd rfl hsbc
  | cmp | cpx | cpy => exact Flags.assigns_compare _ _
  | bit => exact Flags.assigns_bitTest _ _
  | plp => exact Flags.assigns_fromByte _
  | clc | sec | cli | sei | clv | cld | sed => exact Flags.assigns_set _ _
  | sta | stx | sty | txs | pha | php | jsr | rts | jmp | nop => exact Flags.assigns_nothing
  | _ => exact Flags.assigns_setZN _

/-- With the exception of Carry in ADC and SBC, a flag set before an instruction comes out as R16 lists it. -/
theorem State.flagsAfter_set (s : State) (k : Access) {m : Mnemonic} {f : FlagName}
    (hf : f = .c → m ≠ .adc ∧ m ≠ .sbc) (p : Flags) (on : Bool) :
    s.flagsAfter k m (p.set f on) =
      (s.flagsAfter k m p).set f (if f ∈ Claims.flagsOf m then (s.flagsAfter k m p).get f else on) := by
  by_cases hadc : m = .adc
  · subst hadc; exact p.sum_set _ _ (fun h => (hf h).1 rfl) on
  · by_cases hsbc : m = .sbc
    · subst hsbc; exact p.sum_set _ _ (fun h => (hf h).2 rfl) on
    · exact s.flagsAfter_assigns k hadc hsbc p f on

/-- No instruction changes a flag that R16 does not list against it. -/
theorem State.flagsAfter_get (s : State) (k : Access) {m : Mnemonic} {f : FlagName} (h : f ∉ Claims.flagsOf m)
    (p : Flags) : (s.flagsAfter k m p).get f = p.get f := by
  have hf : f = .c → m ≠ .adc ∧ m ≠ .sbc := by
    rintro rfl; constructor <;> rintro rfl <;> exact h (by decide)
  have hset := s.flagsAfter_set k hf p (p.get f)
  rw [Flags.set_get_self, if_neg h] at hset
  rw [hset, Flags.get_set_same]

/-! ### Zero and Negative in terms of numbers -/

theorem byte_beq_zero (v : Byte) : (v == 0) = decide (v.toNat = 0) := by
  rw [Bool.eq_iff_iff, beq_iff_eq, decide_eq_true_iff]
  exact ⟨fun h => by rw [h]; rfl, fun h => BitVec.eq_of_toNat_eq h⟩

theorem byte_bit7 (v : Byte) : v.getLsbD 7 = decide (128 ≤ v.toNat) :=
  (BitVec.msb_eq_getLsbD_last v).symm.trans (BitVec.msb_eq_decide v)

end Sys2Proof.Machine
end

section
/-! Values the host writes, and the bytes without a row. -/

namespace Sys2Proof.Machine

/-- A masked integer is its remainder by the width, a negative one in two's complement. -/
theorem toNat_ofInt_cast (w : Nat) (v : Int) : ((BitVec.ofInt w v).toNat : Int) = v % (2 ^ w : Nat) := by
  rw [BitVec.toNat_ofInt, Int.toNat_of_nonneg (Int.emod_nonneg _ (by positivity))]

/-- The bytes without a row are those of R61. -/
theorem lookup_eq_none_iff {op : Byte} : lookup op = none ↔ op ∈ Claims.unsupported := by
  revert op
  decide +kernel

end Sys2Proof.Machine
end

section
/-! Which instruction reads a field: with another value in a field that an instruction does not read, its record is the
same but for that field. -/

namespace Sys2Proof.Machine

theorem State.next_setA (s : State) (v : Byte) (k : Access) (o : Operand) {m : Mnemonic} (h : m ∉ Claims.readsA) :
    (s.setA v).next k o m =
      (s.next k o m).setA (if m ∈ Claims.writesA then (s.next k o m).a else v) := by
  cases m with
  | sta | tax | tay | pha | and | ora | eor | bit | cmp | adc | sbc => exact absurd (by decide) h
  | _ => rfl

theorem State.next_setX (s : State) (v : Byte) (k : Access) (o : Operand) {m : Mnemonic} (h : m ∉ Claims.readsX) :
    (s.setX v).next k o m =
      (s.next k o m).setX (if m ∈ Claims.writesX then (s.next k o m).x else v) := by
  cases m with
  | stx | txa | txs | inx | dex | cpx => exact absurd (by decide) h
  | _ => rfl

theorem State.next_setY (s : State) (v : Byte) (k : Access) (o : Operand) {m : Mnemonic} (h : m ∉ Claims.readsY) :
    (s.setY v).next k o m =
      (s.next k o m).setY (if m ∈ Claims.writesY then (s.next k o m).y else v) := by
  cases m with
  | sty | tya | iny | dey | cpy => exact absurd (by decide) h
  | _ => rfl

theorem State.next_setSp (s : State) (v : Byte) (k : Access) (o : Operand) {m : Mnemonic} (h : m ∉ Claims.writesSP)
    (htsx : m ≠ .tsx) : (s.setSp v).next k o m = (s.next k o m).setSp v := by
  cases m with
  | txs | pha | php | pla | plp | jsr | rts => exact absurd (by decide) h
  | tsx => exact absurd rfl htsx
  | _ => rfl

theorem State.nextSp_of_not_mem (s : State) {m : Mnemonic} (h : m ∉ Claims.writesSP) : s.nextSp m = s.sp := by
  cases m with
  | txs | pha | php | pla | plp | jsr | rts => exact absurd (by decide) h
  | _ => rfl

/-- The stack page's addresses do not carry out of its low byte (R39). -/
theorem stackAddr_toNat (sp : Byte) : (stackAddr sp).toNat = 0x100 + sp.toNat := by
  have hlt := sp.isLt
  have hbase : stackBase.toNat = 0x100 := rfl
  rw [stackAddr, BitVec.toNat_add, hbase, zext16, BitVec.toNat_setWidth]
  omega

/-- A flag reaches the result of no instruction but ADC and SBC, and theirs is Carry. -/
theorem State.result_setFlag (s : State) {f : FlagName} (on : Bool) (k : Access) {m : Mnemonic}
    (hf : f = .c → m ≠ .adc ∧ m ≠ .sbc) : (s.setP (s.p.set f on)).result k m = s.result k m := by
  cases m with
  | adc | sbc =>
    have hc : f ≠ .c := fun h => by simpa using hf h
    simp only [State.result, State.carrySum, State.setP_a, State.setP_p, Flags.set_c _ _ hc]
  | _ => rfl

theorem State.flagsAfter_setFlag (s : State) {f : FlagName} (on : Bool) (k : Access) {m : Mnemonic}
    (hf : f = .c → m ≠ .adc ∧ m ≠ .sbc) (p : Flags) :
    (s.setP (s.p.set f on)).flagsAfter k m p = s.flagsAfter k m p := by
  cases m with
  | adc | sbc =>
    have hc : f ≠ .c := fun h => by simpa using hf h
    simp only [State.flagsAfter, State.result, State.carrySum, State.setP_a, State.setP_p, Flags.set_c _ _ hc]
  | _ => rfl

theorem State.next_setFlag (s : State) {f : FlagName} (on : Bool) (k : Access) (o : Operand) {m : Mnemonic}
    (hphp : m ≠ .php) (hf : f = .c → m ≠ .adc ∧ m ≠ .sbc) :
    (s.setP (s.p.set f on)).next k o m =
      (s.next k o m).setP ((s.next k o m).p.set f (if f ∈ Claims.flagsOf m then (s.next k o m).p.get f else on)) := by
  have hmem : (s.setP (s.p.set f on)).nextMem k m = s.nextMem k m := by
    cases m with
    | php => exact absurd rfl hphp
    | _ => rfl
  have hp : (s.setP (s.p.set f on)).flagsAfter k m (s.p.set f on) = _ :=
    (s.flagsAfter_setFlag on k hf _).trans (s.flagsAfter_set k hf s.p on)
  exact State.eq_of_fields rfl rfl (by simp [State.next, s.result_setFlag on k hf])
    (by simp [State.next, s.result_setFlag on k hf]) (by simp [State.next, s.result_setFlag on k hf]) hp rfl rfl hmem

theorem State.next_setPc (s : State) (v : Addr) (k : Access) (o : Operand) {m : Mnemonic} (hjsr : m ≠ .jsr) :
    (s.setPc v).next k o m =
      (s.next k o m).setPc (if m ∈ Claims.jumps then (s.next k o m).pc else (s.next k o m).pc + (v - s.pc)) := by
  have hmove (len : Addr) : v + len = s.pc + len + (v - s.pc) := by bv_omega
  cases m with
  | jsr => exact absurd rfl hjsr
  | jmp | rts => rfl
  | _ => exact State.eq_of_fields (hmove _) rfl rfl rfl rfl rfl rfl rfl rfl

theorem State.nextPc_of_not_jump (s : State) (k : Access) (o : Operand) {m : Mnemonic} (h : m ∉ Claims.jumps) :
    s.nextPc k o m = s.pc + BitVec.ofNat 16 o.mode.length := by
  cases m with
  | jmp | jsr | rts => exact absurd (by decide) h
  | _ => rfl

theorem State.next_setCyc (s : State) (c : Int) (k : Access) (o : Operand) (m : Mnemonic) :
    (s.setCyc c).next k o m = (s.next k o m).setCyc ((s.next k o m).cyc + (c - s.cyc)) :=
  State.eq_of_fields rfl rfl rfl rfl rfl rfl (by simp only [State.next, State.setCyc]; omega) rfl rfl

theorem State.next_setFault (s : State) (f : Option Fault) (k : Access) (o : Operand) (m : Mnemonic) :
    (s.setFault f).next k o m = (s.next k o m).setFault f := rfl

/-! ### The operand -/

/-- Only the modes indexed by X read it. -/
theorem State.access_setX (s : State) (v : Byte) {o : Operand} (h : o.mode ∉ Claims.modesX) :
    (s.setX v).access o = s.access o := by
  cases o with
  | ea m =>
    cases m with
    | zpx | absx | indx => exact absurd (by simp [Operand.mode, EaMode.mode, Claims.modesX]) h
    | _ => rfl
  | _ => rfl

/-- Only the modes indexed by Y read it. -/
theorem State.access_setY (s : State) (v : Byte) {o : Operand} (h : o.mode ∉ Claims.modesY) :
    (s.setY v).access o = s.access o := by
  cases o with
  | ea m =>
    cases m with
    | zpy | absy | indy => exact absurd (by simp [Operand.mode, EaMode.mode, Claims.modesY]) h
    | _ => rfl
  | _ => rfl

theorem State.access_setA (s : State) (v : Byte) (o : Operand) : (s.setA v).access o = s.access o :=
  State.access_congr rfl rfl rfl o
theorem State.access_setSp (s : State) (v : Byte) (o : Operand) : (s.setSp v).access o = s.access o :=
  State.access_congr rfl rfl rfl o
theorem State.access_setP (s : State) (v : Flags) (o : Operand) : (s.setP v).access o = s.access o :=
  State.access_congr rfl rfl rfl o
theorem State.access_setPc (s : State) (v : Addr) (o : Operand) : (s.setPc v).access o = s.access o :=
  State.access_congr rfl rfl rfl o
theorem State.access_setCyc (s : State) (v : Int) (o : Operand) : (s.setCyc v).access o = s.access o :=
  State.access_congr rfl rfl rfl o
theorem State.access_setFault (s : State) (v : Option Fault) (o : Operand) : (s.setFault v).access o = s.access o :=
  State.access_congr rfl rfl rfl o

/-- What an instruction answers from a state `s'` that resolves its operand as `s` does. -/
theorem exec_of_access_eq {i : Instr} {s s' t : State} (hk : s'.access i.operand = s.access i.operand)
    (hn : s'.next (s.access i.operand) i.operand i.mnemonic = t) : exec i s' = .next t := by
  rw [exec_eq_next, hk, hn]

/-! ### Witnesses of reads and writes, row by row -/

/-- A state in which every row that writes or reads a register can be seen to do so: `A` is 0x50, the index registers are
0, and 0x0030 holds 0x30, which every mode with the operand bytes 0x30, 0x00 reads. -/
def probe : State := { State.reset with a := 0x50, mem := [(0x30, 0x30)] }

/-- The instruction under an opcode byte, with the operand bytes 0x30, 0x00, changes the register in the probe state. -/
def probeWrites (reg : State → Byte) (op : Byte) : Bool :=
  match decode [op, 0x30, 0x00] with
  | .ok i _ => i.opcode == op && reg (probe.effect i.operand i.mnemonic) != reg probe
  | .error _ => false

/-- The instruction under an opcode byte, with the operand bytes 0x30, 0x00, tells the probe state from one with `v` in the
register. -/
def probeReads (put : State → Byte → State) (v op : Byte) : Bool :=
  match decode [op, 0x30, 0x00] with
  | .ok i _ =>
    i.opcode == op &&
      (put probe v).effect i.operand i.mnemonic != probe.effect i.operand i.mnemonic &&
      (put probe v).effect i.operand i.mnemonic != put (probe.effect i.operand i.mnemonic) v
  | .error _ => false

theorem writes_of_probe {reg : State → Byte} {op : Byte} (h : probeWrites reg op = true) : Claims.writes reg op := by
  unfold probeWrites at h
  split at h
  · next i rest _ =>
    simp only [Bool.and_eq_true, beq_iff_eq, bne_iff_ne] at h
    exact ⟨i, probe, _, h.1, exec_eq_effect i probe, h.2⟩
  · cases h

theorem reads_of_probe {put : State → Byte → State} (v : Byte) {op : Byte} (h : probeReads put v op = true) :
    Claims.reads put op := by
  unfold probeReads at h
  split at h
  · next i rest _ =>
    simp only [Bool.and_eq_true, beq_iff_eq, bne_iff_ne] at h
    obtain ⟨⟨hop, hsame⟩, hput⟩ := h
    refine ⟨i, probe, _, v, hop, exec_eq_effect i probe, ?_, ?_⟩ <;> rw [exec_eq_effect] <;> intro he
    · exact hsame (Host.Outcome.next.inj he)
    · exact hput (Host.Outcome.next.inj he)
  · cases h

/-- What holds of the opcode byte of every row with a property of mnemonic and mode holds of every instruction with it. -/
theorem of_rows (p : Mnemonic → Mode → Prop) {q : Byte → Prop}
    (h : ∀ row ∈ instrTable, p row.mnemonic row.mode → q row.opcode) {i : Instr} (hi : p i.mnemonic i.operand.mode) :
    q i.opcode := by
  obtain ⟨row, hl, hm, hmode, -⟩ := encodingShape i
  obtain ⟨hmem, hop⟩ := lookup_some hl
  rw [← hop]
  exact h row hmem (hm ▸ hmode ▸ hi)

end Sys2Proof.Machine
end

section
/-! The obligations on the state (spec/10_state.md), from the laws above. -/

open Sys2Proof Sys2Proof.Machine

/-- Settles O13: memory and the latch are each kept by every step. -/
theorem stepKeepsTheInvariant : Obligations.StepKeepsTheInvariant :=
  fun _ _ hs h => ⟨step_keeps_mem_wf hs.1 h, step_latchOk h⟩

/-- Settles O60: a spent budget is held, and a positive one pays at most seven cycles. -/
theorem stepKeepsTheOvershootBound : Obligations.StepKeepsTheOvershootBound := by
  intro s t hs h
  obtain ⟨-, rfl⟩ | ⟨hc, hlow, -⟩ := step_cyc h
  · exact hs
  · omega

/-- Settles O16: each bit of the packed byte is its flag, so packing and unpacking undo each other. -/
theorem flagBytePacksAndUnpacks : Obligations.FlagBytePacksAndUnpacks :=
  ⟨fun p => ⟨p.toByte_getLsbD .c, p.toByte_getLsbD .z, p.toByte_getLsbD .i, p.toByte_getLsbD .d, p.toByte_getLsbD .b,
    p.toByte_getLsbD .u, p.toByte_getLsbD .v, p.toByte_getLsbD .n⟩, Flags.fromByte_toByte, Flags.toByte_fromByte⟩

/-- Settles O42: a probe of each row of the lists, and the record of every instruction outside them. -/
theorem accumulatorIsWrittenAndReadAsListed : Obligations.AccumulatorIsWrittenAndReadAsListed := by
  have hwrites : ∀ row ∈ instrTable, row.mnemonic ∈ Claims.writesA → probeWrites State.a row.opcode = true := by
    decide +kernel
  have hreads : ∀ row ∈ instrTable, row.mnemonic ∈ Claims.readsA → probeReads State.setA 0x00 row.opcode = true := by
    decide +kernel
  refine ⟨fun i => of_rows (fun m _ => m ∈ Claims.writesA) fun row hr hp => writes_of_probe (hwrites row hr hp), ?_,
    fun i => of_rows (fun m _ => m ∈ Claims.readsA) fun row hr hp => reads_of_probe 0x00 (hreads row hr hp), ?_, rfl⟩
  · intro i s t hi h
    obtain rfl := eq_next_of_exec h
    exact if_neg hi
  · intro i s t v hi h
    obtain rfl := eq_next_of_exec h
    exact exec_of_access_eq (s.access_setA v _) (s.next_setA v _ _ hi)

/-- Settles O43: as for the accumulator; the rows that read an index register are those of its mnemonics and modes. -/
theorem indexRegistersAreWrittenAndReadAsListed : Obligations.IndexRegistersAreWrittenAndReadAsListed := by
  have hwritesX : ∀ row ∈ instrTable, row.mnemonic ∈ Claims.writesX → probeWrites State.x row.opcode = true := by
    decide +kernel
  have hwritesY : ∀ row ∈ instrTable, row.mnemonic ∈ Claims.writesY → probeWrites State.y row.opcode = true := by
    decide +kernel
  have hreadsX : ∀ row ∈ instrTable, row.mnemonic ∈ Claims.readsX ∨ row.mode ∈ Claims.modesX →
      probeReads State.setX 0x80 row.opcode = true := by
    decide +kernel
  have hreadsY : ∀ row ∈ instrTable, row.mnemonic ∈ Claims.readsY ∨ row.mode ∈ Claims.modesY →
      probeReads State.setY 0x80 row.opcode = true := by
    decide +kernel
  refine ⟨fun i => ⟨?_, ?_⟩, ?_, fun i => ?_, fun i => ?_, ?_, ?_, rfl, rfl⟩
  · exact of_rows (fun m _ => m ∈ Claims.writesX) fun row hr hp => writes_of_probe (hwritesX row hr hp)
  · exact of_rows (fun m _ => m ∈ Claims.writesY) fun row hr hp => writes_of_probe (hwritesY row hr hp)
  · intro i s t h
    obtain rfl := eq_next_of_exec h
    exact ⟨fun hi => if_neg hi, fun hi => if_neg hi⟩
  · exact of_rows (fun m md => m ∈ Claims.readsX ∨ md ∈ Claims.modesX)
      fun row hr hp => reads_of_probe 0x80 (hreadsX row hr hp)
  · exact of_rows (fun m md => m ∈ Claims.readsY ∨ md ∈ Claims.modesY)
      fun row hr hp => reads_of_probe 0x80 (hreadsY row hr hp)
  · intro i s t v hi hmode h
    obtain rfl := eq_next_of_exec h
    exact exec_of_access_eq (s.access_setX v hmode) (s.next_setX v _ _ hi)
  · intro i s t v hi hmode h
    obtain rfl := eq_next_of_exec h
    exact exec_of_access_eq (s.access_setY v hmode) (s.next_setY v _ _ hi)

/-- Settles O44: by the record, and the addresses of the stack page. -/
theorem stackPointerIsWrittenAndReadAsListed : Obligations.StackPointerIsWrittenAndReadAsListed := by
  refine ⟨?_, ?_, stackAddr_toNat⟩
  · intro i s t hi h
    obtain rfl := eq_next_of_exec h
    exact s.nextSp_of_not_mem hi
  · intro i s t v hi htsx h
    obtain rfl := eq_next_of_exec h
    exact exec_of_access_eq (s.access_setSp v _) (s.next_setSp v _ _ hi htsx)

/-- Settles O45: what an instruction makes of the flag register keeps every flag that is not listed. -/
theorem flagsAreWrittenOnlyAsListed : Obligations.FlagsAreWrittenOnlyAsListed := by
  intro i s t f h hf
  obtain rfl := eq_next_of_exec h
  exact s.flagsAfter_get _ hf s.p

/-- Settles O46: the flags reach the flag register alone, and there a flag comes out as R16 lists it. -/
theorem flagsAreReadOnlyAsListed : Obligations.FlagsAreReadOnlyAsListed := by
  intro i s t f on hphp hf h
  obtain rfl := eq_next_of_exec h
  exact exec_of_access_eq (s.access_setP _ _) (s.next_setFlag on _ _ hphp hf)

/-- Settles O47: by the record; the encoding has as many bytes as the operand's mode says. -/
theorem programCounterPassesTheInstruction : Obligations.ProgramCounterPassesTheInstruction := by
  constructor
  · intro i s t hi h
    obtain rfl := eq_next_of_exec h
    obtain ⟨row, -, -, hmode, hlen⟩ := encodingShape i
    have hpc := s.nextPc_of_not_jump (s.access i.operand) i.operand hi
    rw [hlen, hmode, State.next, hpc, BitVec.toNat_add, BitVec.toNat_ofNat]
    omega
  · intro i s t v hjsr h
    obtain rfl := eq_next_of_exec h
    exact exec_of_access_eq (s.access_setPc v _) (s.next_setPc v _ _ hjsr)

/-- Settles O49: the budget reaches only itself, and the latch is carried over. -/
theorem budgetAndLatchAreInvisible : Obligations.BudgetAndLatchAreInvisible := by
  intro i s t c f h
  obtain rfl := eq_next_of_exec h
  exact ⟨rfl, exec_of_access_eq (s.access_setCyc c _) (s.next_setCyc c _ _ _),
    exec_of_access_eq (s.access_setFault f _) (s.next_setFault f _ _ _)⟩

/-- Settles O51: the cost of every instruction is bounded by its operand's cycles. -/
theorem costLiesBetweenTwoAndSeven : Obligations.CostLiesBetweenTwoAndSeven := by
  intro i s t h
  obtain rfl := eq_next_of_exec h
  have := s.cost_bounds i
  simp only [State.next]
  omega

/-- Settles O56: the bound on the overshoot is kept along the run, and `budget` turns end it. -/
theorem aRunOvershootsByAtMostSix : Obligations.ARunOvershootsByAtMostSix := by
  intro s budget hb hf
  constructor
  · exact runLoop_induction stepKeepsTheOvershootBound _ (by simp [State.startRun]; omega)
  · have hend : (s.hostExec budget).Ended := runLoop_ended _ (by simp [State.startRun])
    exact hend.resolve_left (not_not_intro hf)

/-- Settles O58: a step leaves a truthful latch and a run starts with an empty one, so a latched byte has no row. -/
theorem aFaultedRunNamesTheByte : Obligations.AFaultedRunNamesTheByte := by
  intro s budget b addr hf
  have hok : (s.hostExec budget).latchOk = true :=
    runLoop_induction (fun _ _ _ => step_latchOk) _ (State.latchOk_of_unlatched rfl)
  rw [State.latchOk, hf] at hok
  simp only [Bool.and_eq_true, Option.isNone_iff_eq_none, beq_iff_eq] at hok
  obtain ⟨⟨hrow, hbyte⟩, hpc⟩ := hok
  exact ⟨lookup_eq_none_iff.mp hrow, hbyte, hpc⟩

/-- Settles O11: reset writes every field, and an empty memory image reads 0x00 everywhere. -/
theorem resetLeavesTheResetValues : Obligations.ResetLeavesTheResetValues :=
  have hflags : Flags.cleared.toByte = 0 := by decide
  ⟨fun _ => ⟨rfl, rfl, rfl, rfl, rfl, hflags, rfl, rfl, fun _ => rfl⟩, rfl⟩

/-- Settles O12: the reset image is canonical and the latch is empty. -/
theorem invariantHoldsAtReset : Obligations.InvariantHoldsAtReset :=
  ⟨⟨Memory.wf_reset, State.latchOk_of_unlatched rfl⟩, by decide⟩

/-- Settles O14: Zero and Negative of the byte in terms of its number, and the two writes commute field by field. -/
theorem setZNAssignsZeroAndNegative : Obligations.SetZNAssignsZeroAndNegative :=
  ⟨fun p v => by rw [Flags.setZN, byte_beq_zero, byte_bit7], fun _ _ _ => rfl⟩

/-- Settles O15: Carry afterwards is the old Carry or the carry out. -/
theorem carryIsSetAndNeverCleared : Obligations.CarryIsSetAndNeverCleared := by
  intro p sum
  rw [Flags.setCarryIfOverflow_eq]
  exact ⟨fun h => by simp [h], fun h => by simp [Nat.not_lt.mpr h]⟩

/-- Settles O59: registers by the value of a masked integer, flags by the packed byte's bits. -/
theorem hostWritesAreMasked : Obligations.HostWritesAreMasked := by
  refine ⟨fun s v => ⟨rfl, rfl, rfl, rfl, rfl, fun r => ?_, toNat_ofInt_cast 16 v⟩,
    fun s => ⟨rfl, rfl, rfl, rfl, rfl, fun f => (s.p.toByte_getLsbD f).symm⟩,
    fun s f on => ⟨rfl, fun g => ?_⟩, fun s => ⟨rfl, fun f => ?_⟩,
    fun s b => ⟨rfl, Flags.toByte_fromByte b, Flags.fromByte_get b⟩⟩
  · cases r <;> exact toNat_ofInt_cast 8 v
  · split
    · next h => subst h; exact Flags.get_set_same _ _ _
    · next h => exact Flags.get_set_other _ _ h
  · cases f <;> rfl

end

section
/-! Memory after an instruction, in terms of the bytes it stores: the bytes are written one after another, each at an
address of its own; and a byte pushed is the byte pulled. -/

namespace Sys2Proof.Machine

/-! ### The rules' terms for addresses and bytes -/

theorem wide_eq_zext16 (b : Byte) : Claims.wide b = zext16 b := BitVec.ofNat_toNat 16 b

theorem stackCell_eq_stackAddr (sp : Byte) : Claims.stackCell sp = stackAddr sp := by
  rw [Claims.stackCell, wide_eq_zext16, stackAddr]

/-- The effective address of the rules is the resolver's (R65 to R72). -/
theorem ea_eq_effAddr (s : State) (m : EaMode) : Claims.ea s m = s.effAddr m := by
  cases m <;> simp only [Claims.ea, Claims.wordAt, wide_eq_zext16, State.effAddr, State.indxPtr,
    State.readWord_zpPtrWrap]

theorem hiByte_eq_ofNat (w : Addr) : hiByte w = BitVec.ofNat 8 (w.toNat / 256) := by
  rw [hiByte, BitVec.extractLsb', Nat.shiftRight_eq_div_pow]

theorem loByte_eq_ofNat (w : Addr) : loByte w = BitVec.ofNat 8 w.toNat := rfl

/-! ### Several writes in a row -/

/-- Memory after bytes have been written one after another, each at its address. -/
def Memory.storeAll : Memory → List (Addr × Byte) → Memory
  | m, [] => m
  | m, w :: ws => Memory.storeAll (m.write w.1.toNat w.2) ws

/-- An address that none of the writes names reads as before. -/
theorem Memory.read_storeAll_other {ws : List (Addr × Byte)} {addr : Addr} (m : Memory)
    (h : addr ∉ ws.map Prod.fst) : (m.storeAll ws).read addr.toNat = m.read addr.toNat := by
  induction ws generalizing m with
  | nil => rfl
  | cons w ws ih =>
    obtain ⟨hw, hws⟩ := not_or.mp (mt List.mem_cons.mpr h)
    rw [Memory.storeAll, ih _ hws, Memory.read_write_other _ _ fun e => hw (BitVec.eq_of_toNat_eq e)]

/-- When the addresses are distinct, no later write hides an earlier one. -/
theorem Memory.read_storeAll_of_mem {ws : List (Addr × Byte)} {addr : Addr} {v : Byte} {m : Memory}
    (hm : m.wf = true) (hws : (ws.map Prod.fst).Nodup) (h : (addr, v) ∈ ws) :
    (m.storeAll ws).read addr.toNat = v := by
  induction ws generalizing m with
  | nil => cases h
  | cons w ws ih =>
    obtain ⟨hw, hws⟩ := List.nodup_cons.mp hws
    obtain rfl | h := List.mem_cons.mp h
    · rw [Memory.storeAll, Memory.read_storeAll_other _ hw]
      exact Memory.read_write_same _ _ hm
    · exact ih (Memory.wf_write _ _ hm) hws h

/-! ### What an instruction stores -/

/-- Memory after an instruction is memory after its stores. -/
theorem State.nextMem_eq_storeAll (i : Instr) (s : State) :
    s.nextMem (s.access i.operand) i.mnemonic = s.mem.storeAll (Claims.stores i s) := by
  have hfit := operandFits_instr i
  unfold Claims.stores
  generalize i.operand = o, i.mnemonic = m, i.length = n at *
  cases m with
  | sta | stx | sty =>
    cases o with
    | ea m => simp only [State.effAddr_consume]; rfl
    | none | imm n | ind w => cases hfit
  | inc | dec =>
    cases o with
    | ea m => simp only [State.effAddr_consume, Claims.rd, ea_eq_effAddr]; rfl
    | none | imm n | ind w => cases hfit
  | jsr => rw [State.nextMem, hiByte_eq_ofNat, loByte_eq_ofNat]; rfl
  | _ => rfl

/-- An instruction stores to no address twice: the only one that stores two bytes is JSR, at two stack addresses. -/
theorem nodup_storesTo (i : Instr) (s : State) : (Claims.storesTo i s).Nodup := by
  unfold Claims.storesTo Claims.stores
  split
  case h_8 => -- JSR
    have hne : stackAddr s.sp ≠ stackAddr (s.sp - 1) := fun h => by have := stackAddr_inj h; bv_omega
    simpa using hne
  case h_9 => exact List.nodup_nil -- no store
  all_goals exact List.nodup_singleton _ -- one byte

/-- An instruction that puts a target into `PC` stores nothing, unless it is a JSR. -/
theorem not_mem_jumps_of_stores {i : Instr} {s : State} {w : Addr × Byte} (h : w ∈ Claims.stores i s)
    (hjsr : i.mnemonic ≠ .jsr) : i.mnemonic ∉ Claims.jumps := by
  unfold Claims.stores at h
  generalize i.mnemonic = m, i.operand = o at *
  cases m with
  | jsr => exact absurd rfl hjsr
  | jmp | rts => cases h
  | _ => decide

/-! ### A pull after a push -/

/-- A pull instruction after a push instruction acts on the pushed byte, with `SP` where it was before both (R41). -/
theorem State.pullInstr_pushInstr {s : State} (v : Byte) (act : State → Byte → State) (h : s.mem.wf = true) :
    (s.pushInstr v).pullInstr act =
      act (((s.setPc (s.pc + 2)).setMem (s.mem.write (stackAddr s.sp).toNat v)).tick 6) v := by
  have hread : (s.pushInstr v).byteAt (stackAddr s.sp) = v := Memory.read_write_same _ _ h
  have hsp : (s.pushInstr v).sp + 1 = s.sp := BitVec.sub_add_cancel s.sp 1
  rw [State.pullInstr_eq, hsp, hread, State.pushInstr_eq]
  congr 1
  apply State.eq_of_fields <;> simp
  · bv_omega
  · omega

end Sys2Proof.Machine
end

section
/-! The obligations on memory (spec/20_memory.md), from the laws above. -/

open Sys2Proof Sys2Proof.Machine

/-- Settles O17: the read and the write field by field, and the memory's own laws for what reads see afterwards. -/
theorem busReadAndBusWrite : Obligations.BusReadAndBusWrite :=
  ⟨fun _ _ => rfl, fun s addr v =>
    ⟨rfl, State.memWrite_byteAt_same addr v, fun _ hb => s.memWrite_byteAt_other v hb⟩⟩

/-- Settles O20: the stack address of a pull after a push is that of the push. -/
theorem pullReadsAndUndoesPush : Obligations.PullReadsAndUndoesPush := by
  refine ⟨fun s => ?_, fun s v h => ?_⟩
  · rw [stackCell_eq_stackAddr]; rfl
  · have hsp : (s.push v).sp + 1 = s.sp := BitVec.sub_add_cancel s.sp 1
    rw [State.pull_fst, State.pull_snd, hsp]
    exact ⟨State.memWrite_byteAt_same _ _ h, rfl⟩

/-- Settles O48: an instruction's stores are all that it does to memory. -/
theorem onlyStoresChangeMemory : Obligations.OnlyStoresChangeMemory := by
  intro i s t h addr haddr
  obtain rfl := eq_next_of_exec h
  rw [State.byteAt, State.next, State.nextMem_eq_storeAll]
  exact Memory.read_storeAll_other _ haddr

/-- Settles O53: the pull gets the pushed byte, and unpacking the packed flags gives them back. -/
theorem pullAfterPushRestores : Obligations.PullAfterPushRestores := by
  refine fun s h => ⟨⟨_, _, rfl, rfl, ?_, ?_⟩, ⟨_, _, rfl, rfl, ?_, ?_⟩⟩ <;> rw [State.pullInstr_pushInstr _ _ h]
  · exact Flags.fromByte_toByte s.p
  all_goals rfl

/-- Settles O54: the stores of an instruction lie at distinct addresses, so each is still there after it; and the next
fetch reads memory. -/
theorem aStoreIsSeenByTheNextFetch : Obligations.AStoreIsSeenByTheNextFetch := by
  intro i s addr v hmem hv
  have hread : (s.next (s.access i.operand) i.operand i.mnemonic).byteAt addr = v := by
    rw [State.byteAt, State.next, State.nextMem_eq_storeAll]
    exact Memory.read_storeAll_of_mem hmem (nodup_storesTo i s) hv
  refine ⟨_, exec_eq_next i s, hread, fun hpc => ?_, fun hjsr => ?_⟩
  · rw [State.fetchByte_fst, hpc, hread]
  · exact s.nextPc_of_not_jump _ _ (not_mem_jumps_of_stores hv hjsr)

/-- Settles O18: a read at `PC`, then `PC` advanced. -/
theorem fetchByteAdvancesThePc : Obligations.FetchByteAdvancesThePc :=
  fun _ => rfl

/-- Settles O19: a write at the stack address, then `SP` decremented. -/
theorem pushStoresThenDecrements : Obligations.PushStoresThenDecrements := by
  intro s v
  rw [stackCell_eq_stackAddr]
  rfl

end

section
/-! The decoder and the encoder as one relation: a format builds an instruction of its operand bytes, the table pairs
each opcode byte with a format, and so a byte string decodes to an instruction exactly when it is the instruction's encoding
with the left-over bytes behind it. -/

namespace Sys2Proof

/-- The instruction that a format makes of its operand bytes, low byte first (R50, R53). -/
inductive Maker.Builds : Maker → List Byte → Instr → Prop
  | implied (i : Instr) : Builds (.implied i) [] i
  | op8 (f : Byte → Instr) (n : Byte) : Builds (.op8 f) [n] (f n)
  | op16 (f : Addr → Instr) (w : Addr) : Builds (.op16 f) [loByte w, hiByte w] (f w)

theorem Maker.build_eq_ok_iff {mk : Maker} {op : Byte} {tail rest : List Byte} {i : Instr} :
    mk.build op tail = .ok i rest ↔ ∃ bs, mk.Builds bs i ∧ tail = bs ++ rest := by
  constructor
  · intro h
    match mk, tail, h with
    | .implied i, _, rfl => exact ⟨_, .implied i, rfl⟩
    | .op8 f, n :: _, rfl => exact ⟨_, .op8 f n, rfl⟩
    | .op16 f, lo :: hi :: _, rfl => exact ⟨_, .op16 f (word hi lo), by rw [loByte_word, hiByte_word]; rfl⟩
  · rintro ⟨bs, hb, rfl⟩
    cases hb with
    | implied | op8 => rfl
    | op16 f w => simp [Maker.build]

/-- Every instruction is what the row of its opcode byte builds of its operand bytes (R60). -/
theorem lookup_opcode_builds (i : Instr) :
    ∃ row, lookup i.opcode = some row ∧ row.make.Builds i.operand.bytes i := by
  cases i <;> exact ⟨_, rfl, by constructor⟩

/-- What a row builds is encoded as the row's opcode byte and the operand bytes it was built of. -/
def Row.EncodesBack (row : Row) : Prop := ∀ bs i, row.make.Builds bs i → encode i = row.opcode :: bs

/-- No row builds an instruction of another row (R60). -/
theorem row_encodesBack : ∀ row ∈ instrTable, row.EncodesBack := by
  have hrow : instrTable.Forall Row.EncodesBack := by
    repeat' apply And.intro
    all_goals (rintro _ _ ⟨⟩; rfl)
  exact List.forall_iff_forall_mem.mp hrow

/-- The decoder accepts exactly the encodings, each with any bytes behind it (R51, R52, R60). -/
theorem decode_eq_ok_iff {bs rest : List Byte} {i : Instr} : decode bs = .ok i rest ↔ bs = encode i ++ rest := by
  constructor
  · intro h
    cases bs with
    | nil => cases h
    | cons op tail =>
      rw [decode] at h
      split at h
      · cases h
      · next row hl =>
        obtain ⟨bs, hb, rfl⟩ := Maker.build_eq_ok_iff.mp h
        obtain ⟨hmem, rfl⟩ := lookup_some hl
        rw [row_encodesBack row hmem bs i hb, List.cons_append]
  · rintro rfl
    obtain ⟨row, hl, hb⟩ := lookup_opcode_builds i
    simp only [encode, List.cons_append, decode, hl]
    exact Maker.build_eq_ok_iff.mpr ⟨_, hb, rfl⟩

end Sys2Proof
end

section
/-! What the addressing modes cost in the terms of the rules: a page cross is a carry out of the low byte (R74), and the
cycles an instruction charges are the total of its table row, with the page-cross cycle where the row is marked (R182). -/

namespace Sys2Proof.Machine

/-! ### Page crosses -/

theorem hiByte_toNat (a : Addr) : (hiByte a).toNat = a.toNat / 256 := by
  have ha := a.isLt
  rw [hiByte_eq_ofNat, BitVec.toNat_ofNat]
  omega

theorem pageCrossed_iff {a b : Addr} : pageCrossed a b = true ↔ a.toNat / 256 ≠ b.toNat / 256 := by
  rw [pageCrossed, bne_iff_ne, ne_eq, ← BitVec.toNat_inj, hiByte_toNat, hiByte_toNat]

/-- An index crosses a page exactly when the low byte carries out, at the top of memory too (R74). -/
theorem pageCrossed_add_index_iff {base : Addr} {idx : Byte} :
    pageCrossed base (base + zext16 idx) = true ↔ 0xFF < base.toNat % 256 + idx.toNat := by
  have hb := base.isLt
  have hi := idx.isLt
  rw [pageCrossed_iff, BitVec.toNat_add, zext16, BitVec.toNat_setWidth]
  omega

/-- The rules' page-cross cycle is the resolver's. -/
theorem crossing_eq_ite_pageCrossed (base target : Addr) :
    Claims.crossing base target = if pageCrossed base target then 1 else 0 := by
  simp only [Claims.crossing, pageCrossed_iff, ite_not]

/-! ### Cycles of an operand -/

theorem size_eq_length (m : EaMode) : Claims.size m = m.mode.length := by
  cases m <;> rfl

/-- A read's cycles: the instruction's bytes, the mode's own, and the access (R76, R182). -/
theorem State.access_readCycles (s : State) (m : EaMode) : (s.access (.ea m)).readCycles = Claims.readCost s m := by
  cases m with
  | zp | zpx | zpy | abs | indx => rfl
  | absx | absy | indy =>
    have hread : (Dir.read == Dir.write) = false := rfl
    simp only [State.access, State.modeCycles, hread, Bool.false_or, Claims.readCost, Claims.penalty,
      crossing_eq_ite_pageCrossed, Claims.ea, Claims.wordAt, wide_eq_zext16]
    split <;> rfl

/-- Resolving charges what is left of a direction's total without the instruction's bytes and the access (R76). -/
theorem State.resolve_eq_of_total {s : State} {dir : Dir} {m : EaMode} {total : Nat}
    (h : m.mode.length + s.modeCycles dir m + 1 = total) :
    s.resolve dir m = (Claims.ea s m, { s with cyc := s.cyc - ((total : Int) - Claims.size m - 1) }) := by
  have hcharge : ((total : Int) - Claims.size m - 1) = s.modeCycles dir m := by rw [size_eq_length]; omega
  rw [hcharge, ea_eq_effAddr]
  exact Prod.ext rfl (s.resolve_snd dir m)

/-! ### Cycles of an instruction -/

/-- What an operand gives, with its cycles as the rules state them. -/
def State.ruleAccess (s : State) : Operand → Access
  | .ea m => { s.access (.ea m) with readCycles := Claims.readCost s m, writeCycles := Claims.writeCost m }
  | o => s.access o

theorem State.access_eq_ruleAccess (s : State) (o : Operand) : s.access o = s.ruleAccess o := by
  cases o with
  | ea m => rw [State.ruleAccess, ← s.access_readCycles, ← s.access_writeCycles]
  | none | imm n | ind w => rfl

/-- The cycles an instruction charges are the total of its row, and the page-cross cycle where the row has one. -/
theorem State.cost_eq_row_total (s : State) (i : Instr) :
    ∃ row, lookup i.opcode = some row ∧
      (s.access i.operand).cost i.operand i.mnemonic = row.cycles + Claims.rowPenalty row i s := by
  rw [State.access_eq_ruleAccess]
  cases i <;> exact ⟨_, rfl, rfl⟩

end Sys2Proof.Machine
end

section
/-! The obligations on encoding and addressing (spec/30_encoding.md), from the laws above. -/

open Sys2Proof Sys2Proof.Machine

/-- Settles O1: an encoding with bytes behind it is what the decoder accepts. -/
theorem decodeOfEncodeIsTheInstruction : Obligations.DecodeOfEncodeIsTheInstruction :=
  fun _ _ _ => decode_eq_ok_iff.mpr rfl

/-- Settles O2: the decoder accepts nothing else. -/
theorem encodeOfDecodeIsTheBytes : Obligations.EncodeOfDecodeIsTheBytes :=
  fun _ _ _ h => decode_eq_ok_iff.mp h

/-- Settles O3: the byte is the opcode of what it decodes to, whose row and encoding have the length of its mode. -/
theorem lengthIsFixedByTheOpcode : Obligations.LengthIsFixedByTheOpcode := by
  constructor
  · intro op tail rest i h
    have hbytes : op :: tail = encode i ++ rest := decode_eq_ok_iff.mp h
    obtain ⟨rfl, -⟩ := List.cons.inj hbytes
    obtain ⟨row, hl, -, hmode, hlen⟩ := encodingShape i
    have hi : i.length = row.mode.length := by rw [Instr.length, hmode]
    refine ⟨row, hl, hi, ?_, ?_⟩
    · rw [fetchLength, hl, hi]
    · rw [hbytes, List.length_append, hlen, hi]
  · intro op hl tail
    simp only [decode, hl]

/-- Settles O21: the charge in each direction is that direction's total without the bytes and the access. -/
theorem modesResolveToTheirAddresses : Obligations.ModesResolveToTheirAddresses :=
  fun s m => ⟨State.resolve_eq_of_total (s.access_readCycles m), State.resolve_eq_of_total (s.access_writeCycles m)⟩

/-- Settles O22: pages are high bytes, and an index reaches the next page by a carry out of the low byte. -/
theorem pageCrossIsCarryOutOfTheLowByte : Obligations.PageCrossIsCarryOutOfTheLowByte := by
  refine ⟨fun a b => ?_, fun base idx => ?_, fun base => ?_, by decide⟩
  · rw [Bool.eq_iff_iff, pageCrossed_iff, decide_eq_true_iff]
  · rw [Bool.eq_iff_iff, pageCrossed_add_index_iff, decide_eq_true_iff]
  · rw [← Bool.not_eq_true, pageCrossed_add_index_iff]
    have hlow : base.toNat % 256 < 256 := Nat.mod_lt _ (by decide)
    have hzero : (0 : Byte).toNat = 0 := rfl
    omega

/-- Settles O50: by the record, whose cost is the total of the instruction's row. -/
theorem costIsTheTableTotal : Obligations.CostIsTheTableTotal := by
  intro i s t row hl h
  obtain rfl := eq_next_of_exec h
  obtain ⟨row', hl', hcost⟩ := s.cost_eq_row_total i
  obtain rfl : row' = row := Option.some.inj (hl'.symm.trans hl)
  simp only [State.next, hcost]
  omega

/-- Settles O4: the keys by inspection of the table, the bytes without one by R61's list. -/
theorem tableKeysAreDistinctAndTheRestUnsupported : Obligations.TableKeysAreDistinctAndTheRestUnsupported :=
  ⟨by decide, rfl, fun _ => lookup_eq_none_iff⟩

/-- Settles O5: each string is the encoding written out. -/
theorem wordsOfEachFamilyDecode : Obligations.WordsOfEachFamilyDecode := by
  unfold Obligations.WordsOfEachFamilyDecode
  and_intros <;> exact decode_eq_ok_iff.mpr rfl

end

section
/-! Loads, stores and instructions that read an operand, in the terms of the rules: the state in which an instruction acts
on its operand, the register and the flags a load leaves, and what a store leaves. -/

namespace Sys2Proof.Machine

/-! ### Reading an operand -/

/-- An instruction with an immediate operand acts after its two bytes, for two cycles (R64, R182). -/
theorem State.actOn_imm_after (s : State) (n : Byte) (act : State → Byte → State) :
    s.actOn (.imm n) act = act (Claims.after s 2 2) n :=
  s.actOn_imm n act

/-- The state in which an instruction acts on an operand from memory (R75, R182). -/
theorem State.fetched_ea (s : State) (m : EaMode) : s.fetched (.ea m) = Claims.afterRead s m := by
  rw [State.fetched, s.access_readCycles, Claims.afterRead, size_eq_length]
  rfl

/-- An instruction with an operand in memory acts on the byte at the effective address (R75). -/
theorem State.actOn_ea_afterRead (s : State) (m : EaMode) (act : State → Byte → State) :
    s.actOn (.ea m) act = act (Claims.afterRead s m) (Claims.rd s m) := by
  rw [s.actOn_ea, s.fetched_ea, State.access, Claims.rd, ea_eq_effAddr]

/-! ### Loading a register -/

/-- SetZN in terms of the result's number (R18). -/
theorem Flags.setZN_eq_zn (p : Flags) (v : Byte) : p.setZN v = Claims.zn p v := by
  rw [Flags.setZN, Claims.zn, byte_beq_zero, byte_bit7]

/-- A load of `A` as the rules put a result into it (R80). -/
theorem State.loadA_eq_putA (s : State) (v : Byte) : s.loadA v = Claims.putA s v := by
  rw [State.loadA, Flags.setZN_eq_zn]; rfl

/-- A load of `X` as the rules put a result into it (R81). -/
theorem State.loadX_eq_putX (s : State) (v : Byte) : s.loadX v = Claims.putX s v := by
  rw [State.loadX, Flags.setZN_eq_zn]; rfl

/-- A load of `Y` as the rules put a result into it (R82). -/
theorem State.loadY_eq_putY (s : State) (v : Byte) : s.loadY v = Claims.putY s v := by
  rw [State.loadY, Flags.setZN_eq_zn]; rfl

/-! ### Storing a byte -/

/-- A store leaves the byte at the effective address, for the mode's store cycles (R83, R182). -/
theorem State.storeThrough_ea_stored (s : State) (m : EaMode) (v : Byte) :
    s.storeThrough (.ea m) v = Claims.stored s m v := by
  rw [s.storeThrough_ea, s.access_writeCycles, State.access, Claims.stored, ea_eq_effAddr, size_eq_length]
  rfl

end Sys2Proof.Machine
end

section
/-! The obligations on loads and stores (spec/40_load_store.md), from the laws above. -/

open Sys2Proof Sys2Proof.Machine

/-- Settles O23: the effect of every mode is one load of A, in the state and with the byte that its operand gives. -/
theorem ldaLoadsTheOperand : Obligations.LdaLoadsTheOperand := by
  intro s
  simp only [exec_eq_effect, Instr.operand, Instr.mnemonic, Instr.form, State.effect, State.actOn_imm_after,
    State.actOn_ea_afterRead, State.loadA_eq_putA, implies_true, and_self]

/-- Settles O24: as for LDA, with X and with Y as the register. -/
theorem ldxAndLdyLoadTheOperand : Obligations.LdxAndLdyLoadTheOperand := by
  intro s
  simp only [exec_eq_effect, Instr.operand, Instr.mnemonic, Instr.form, State.effect, State.actOn_imm_after,
    State.actOn_ea_afterRead, State.loadX_eq_putX, State.loadY_eq_putY, implies_true, and_self]

/-- Settles O25: the effect of every mode is one store of the register through its operand. -/
theorem storesWriteTheRegister : Obligations.StoresWriteTheRegister := by
  intro s
  simp only [exec_eq_effect, Instr.operand, Instr.mnemonic, Instr.form, State.effect, State.storeThrough_ea_stored,
    implies_true, and_self]

end

section
/-! Transfers, pushes and pulls in the terms of the rules: the state in which an instruction without an operand acts, what a
push instruction leaves, and the state and the byte on which a pull instruction acts. -/

namespace Sys2Proof.Machine

/-- An instruction of one internal cycle acts after its opcode byte, for two cycles (R38, R182). -/
theorem State.withTick_after (s : State) (act : State → State) : s.withTick act = act (Claims.after s 1 2) :=
  s.withTick_fetched act

/-- A push instruction stores the byte in the stack page and moves `SP` below it, for three cycles (R96, R98). -/
theorem State.pushInstr_after (s : State) (v : Byte) :
    s.pushInstr v = { Claims.after s 1 3 with
      mem := s.mem.write (Claims.stackCell s.sp).toNat v, sp := s.sp - 1 } := by
  rw [s.pushInstr_eq, stackCell_eq_stackAddr]
  rfl

/-- A pull instruction acts on the byte above `SP`, with `SP` moved onto it, after three cycles (R97, R99; D9). -/
theorem State.pullInstr_after (s : State) (act : State → Byte → State) :
    s.pullInstr act = act { Claims.after s 1 3 with sp := s.sp + 1 } (s.byteAt (Claims.stackCell (s.sp + 1))) := by
  rw [s.pullInstr_eq, stackCell_eq_stackAddr]
  rfl

end Sys2Proof.Machine
end

section
/-! The obligations on transfers and the stack (spec/41_transfer_stack.md), from the laws above. -/

open Sys2Proof Sys2Proof.Machine

/-- Settles O26: each transfer acts after its opcode byte; the first five are loads of a register, TXS writes `SP` alone. -/
theorem transfersCopyARegister : Obligations.TransfersCopyARegister := by
  intro s
  simp only [exec_eq_effect, Instr.mnemonic, Instr.form, State.effect, State.withTick_after,
    State.loadA_eq_putA, State.loadX_eq_putX, State.loadY_eq_putY]
  exact ⟨rfl, rfl, rfl, rfl, rfl, rfl⟩

/-- Settles O27: both are the push instruction, of A and of the packed flags. -/
theorem pushInstructionsStoreAndDecrement : Obligations.PushInstructionsStoreAndDecrement := by
  intro s
  simp only [exec_eq_effect, Instr.mnemonic, Instr.form, State.effect, State.pushInstr_after, and_self]

/-- Settles O28: both are the pull instruction; PLA loads A with the byte, PLP unpacks it into the flags. -/
theorem pullInstructionsReadTheStack : Obligations.PullInstructionsReadTheStack := by
  intro s
  simp only [exec_eq_effect, Instr.mnemonic, Instr.form, State.effect, State.pullInstr_after,
    State.loadA_eq_putA, true_and]
  rfl

end

section
/-! A return after a call: both pushed bytes are still in the stack page, the low one just above `SP` and the high one
above it, so the two pulls give the pushed address back. -/

namespace Sys2Proof.Machine

/-- Each byte that a call pushes is there after it (R49, R105). -/
theorem State.callTo_byteAt {s : State} {w addr : Addr} {v : Byte} (h : s.mem.wf = true)
    (hv : (addr, v) ∈ Claims.stores (.jsr w) s) : (s.callTo w).byteAt addr = v := by
  obtain ⟨t, ht, hread, -⟩ := aStoreIsSeenByTheNextFetch (.jsr w) s addr v h hv
  obtain rfl := eq_effect_of_exec ht
  exact hread

/-- The high byte of the return address is pushed first, at `SP` (R105; D15). -/
theorem State.callTo_byteAt_high {s : State} (w : Addr) (h : s.mem.wf = true) :
    (s.callTo w).byteAt (stackAddr s.sp) = hiByte (s.pc + 2) :=
  State.callTo_byteAt h (hiByte_eq_ofNat _ ▸ List.mem_cons_self)

/-- The low byte of the return address lies one below (R105; D15). -/
theorem State.callTo_byteAt_low {s : State} (w : Addr) (h : s.mem.wf = true) :
    (s.callTo w).byteAt (stackAddr (s.sp - 1)) = loByte (s.pc + 2) :=
  State.callTo_byteAt h (List.mem_cons_of_mem _ List.mem_cons_self)

/-- A return right after a call leaves the state before the call, past its three bytes and twelve cycles later, with the
return address still in the stack page (R105, R106). -/
theorem State.returnFrom_callTo {s : State} (w : Addr) (h : s.mem.wf = true) :
    (s.callTo w).returnFrom = { Claims.after s 3 12 with mem := (s.callTo w).mem } := by
  have hsp : (s.callTo w).sp = s.sp - 2 := by rw [s.callTo_eq]; rfl
  have hlow : (s.callTo w).sp + 1 = s.sp - 1 := by rw [hsp]; bv_omega
  have hhigh : (s.callTo w).sp + 2 = s.sp := by rw [hsp, BitVec.sub_add_cancel]
  have hpc : s.pc + 2 + 1 = s.pc + 3 := by rw [BitVec.add_assoc]; rfl
  rw [State.returnFrom_eq, hlow, hhigh, State.callTo_byteAt_low w h, State.callTo_byteAt_high w h, word_hiByte_loByte,
    hpc, s.callTo_eq]
  apply State.eq_of_fields <;> simp [Claims.after]
  omega

end Sys2Proof.Machine
end

section
/-! The obligations on subroutines and jumps (spec/42_subroutine_jump.md), from the laws above. -/

open Sys2Proof Sys2Proof.Machine

/-- Settles O29: the effect of a call, its stack addresses and the bytes of its return address in the rules' terms. -/
theorem jsrPushesTheReturnAddress : Obligations.JsrPushesTheReturnAddress := by
  intro s w
  rw [exec_eq_effect, stackCell_eq_stackAddr, stackCell_eq_stackAddr, ← hiByte_eq_ofNat, ← loByte_eq_ofNat]
  exact congrArg _ (s.callTo_eq w)

/-- Settles O30: the effect of a return, its stack addresses in the rules' terms. -/
theorem rtsReturnsPastThePulledAddress : Obligations.RtsReturnsPastThePulledAddress := by
  intro s
  rw [exec_eq_effect, stackCell_eq_stackAddr, stackCell_eq_stackAddr]
  exact congrArg _ s.returnFrom_eq

/-- Settles O31: both are one jump, to its operand and to the word that its operand points to. -/
theorem jumpsSetThePc : Obligations.JumpsSetThePc := by
  intro s w
  rw [exec_eq_effect, exec_eq_effect]
  exact ⟨congrArg _ (s.jumpThrough_abs w), congrArg _ (s.jumpThrough_ind w)⟩

/-- Settles O52: the return pulls the address that the call pushed, one below the byte after the call. -/
theorem rtsAfterJsrComesBack : Obligations.RtsAfterJsrComesBack := by
  intro s w h
  refine ⟨s.callTo w, (s.callTo w).returnFrom, exec_eq_effect _ s, exec_eq_effect _ _, rfl, ?_⟩
  rw [State.returnFrom_callTo w h]
  exact ⟨rfl, rfl, rfl, rfl, rfl, rfl⟩

end

section
/-! Logical operations in the terms of the rules: each puts the accumulator combined with the operand into `A`, and the
operand's fetch leaves `A` as it was. -/

namespace Sys2Proof.Machine

/-- The bytes and the cycles of an immediate operand leave `A` alone (R64). -/
@[simp] theorem after_a (s : State) (len cost : Nat) : (Claims.after s len cost).a = s.a := rfl

/-- Reading an operand from memory leaves `A` alone (R75). -/
@[simp] theorem afterRead_a (s : State) (m : EaMode) : (Claims.afterRead s m).a = s.a := rfl

/-- R110: the conjunction goes into `A` as a load's byte does. -/
theorem State.andA_eq_putA (s : State) (m : Byte) : s.andA m = Claims.putA s (s.a &&& m) :=
  s.loadA_eq_putA _

/-- R111: the disjunction goes into `A` as a load's byte does. -/
theorem State.oraA_eq_putA (s : State) (m : Byte) : s.oraA m = Claims.putA s (s.a ||| m) :=
  s.loadA_eq_putA _

/-- R112: the exclusive disjunction goes into `A` as a load's byte does. -/
theorem State.eorA_eq_putA (s : State) (m : Byte) : s.eorA m = Claims.putA s (s.a ^^^ m) :=
  s.loadA_eq_putA _

end Sys2Proof.Machine
end

section
/-! The obligations on logical operations (spec/43_logical.md), from the laws above. -/

open Sys2Proof Sys2Proof.Machine

/-- Settles O32: the effect of every mode is one AND into A, in the state and with the byte that its operand gives. -/
theorem andCombinesWithTheAccumulator : Obligations.AndCombinesWithTheAccumulator := by
  intro s
  simp only [exec_eq_effect, Instr.operand, Instr.mnemonic, Instr.form, State.effect, State.actOn_imm_after,
    State.actOn_ea_afterRead, State.andA_eq_putA, after_a, afterRead_a, implies_true, and_self]

/-- Settles O33: as for AND, with the disjunction. -/
theorem oraCombinesWithTheAccumulator : Obligations.OraCombinesWithTheAccumulator := by
  intro s
  simp only [exec_eq_effect, Instr.operand, Instr.mnemonic, Instr.form, State.effect, State.actOn_imm_after,
    State.actOn_ea_afterRead, State.oraA_eq_putA, after_a, afterRead_a, implies_true, and_self]

/-- Settles O34: as for AND, with the exclusive disjunction. -/
theorem eorCombinesWithTheAccumulator : Obligations.EorCombinesWithTheAccumulator := by
  intro s
  simp only [exec_eq_effect, Instr.operand, Instr.mnemonic, Instr.form, State.effect, State.actOn_imm_after,
    State.actOn_ea_afterRead, State.eorA_eq_putA, after_a, afterRead_a, implies_true, and_self]

end

section
/-! Increments and decrements in the terms of the rules: one more and one less modulo 256 as sums of numbers, and what a
read-modify-write leaves. -/

namespace Sys2Proof.Machine

/-! ### Counting a byte -/

/-- One more modulo 256 (R115, R116). -/
theorem byte_add_one_eq_ofNat (b : Byte) : b + 1 = BitVec.ofNat 8 (b.toNat + 1) := by
  bv_omega

/-- One less modulo 256 is 255 more (R117, R118). -/
theorem byte_sub_one_eq_ofNat (b : Byte) : b - 1 = BitVec.ofNat 8 (b.toNat + 255) := by
  bv_omega

/-- The bytes and the cycles of an instruction leave `X` alone (R182). -/
@[simp] theorem after_x (s : State) (len cost : Nat) : (Claims.after s len cost).x = s.x := rfl

/-- The bytes and the cycles of an instruction leave `Y` alone (R182). -/
@[simp] theorem after_y (s : State) (len cost : Nat) : (Claims.after s len cost).y = s.y := rfl

/-! ### Counting a byte of memory -/

/-- A read-modify-write leaves the new byte at the effective address, two cycles dearer than a store (R119, R120; D10). -/
theorem State.modifyThrough_ea_modified (s : State) (m : EaMode) (f : Byte → Byte) :
    s.modifyThrough (.ea m) f = Claims.modified s m (f (Claims.rd s m)) := by
  have hbyte : (s.access (.ea m)).byte = Claims.rd s m := by rw [State.access, Claims.rd, ea_eq_effAddr]
  rw [s.modifyThrough_ea, s.storeThrough_ea_stored, hbyte, Flags.setZN_eq_zn]
  apply State.eq_of_fields <;> simp [Claims.stored, Claims.modified, Claims.after]
  omega

end Sys2Proof.Machine
end

section
/-! The obligations on increments and decrements (spec/44_incdec.md), from the laws above. -/

open Sys2Proof Sys2Proof.Machine

/-- Settles O35: each acts after its opcode byte and loads its register with one more or one less. -/
theorem registersCountModulo256 : Obligations.RegistersCountModulo256 := by
  intro s
  simp only [exec_eq_effect, Instr.mnemonic, Instr.form, State.effect, State.withTick_after, State.loadX_eq_putX,
    State.loadY_eq_putY, after_x, after_y, byte_add_one_eq_ofNat, byte_sub_one_eq_ofNat, and_self]

/-- Settles O36: the effect of every mode is one read-modify-write through its operand. -/
theorem incAndDecReplaceAByteOfMemory : Obligations.IncAndDecReplaceAByteOfMemory := by
  intro s
  simp only [exec_eq_effect, Instr.operand, Instr.mnemonic, Instr.form, State.effect, State.modifyThrough_ea_modified,
    implies_true, and_self]

end

section
/-! Bit test in the terms of the rules: three flags from the accumulator and the operand. -/

namespace Sys2Proof.Machine

/-- R125: Zero from the conjunction of `A` and the operand (a byte's `==` decides its `=`), Overflow and Negative from the
operand's own bits. -/
theorem State.bitA_eq_bitTested (s : State) (m : Byte) : s.bitA m = Claims.bitTested s m :=
  rfl

end Sys2Proof.Machine
end

section
/-! The obligation on bit test (spec/45_bit.md), from the law above. -/

open Sys2Proof Sys2Proof.Machine

/-- Settles O37: the effect of both modes is one bit test, in the state and with the byte that the operand gives. -/
theorem bitTestsTheOperand : Obligations.BitTestsTheOperand := by
  intro s
  simp only [exec_eq_effect, Instr.operand, Instr.mnemonic, Instr.form, State.effect, State.actOn_ea_afterRead,
    State.bitA_eq_bitTested, implies_true, and_self]

end

section
/-! Flag set and clear in the terms of the rules: one flag written after the opcode byte. -/

namespace Sys2Proof.Machine

/-- R126 to R132: a flag instruction acts after its opcode byte, in two cycles (D8), and writes its flag alone. -/
theorem State.flagInstr_after (s : State) (f : FlagName) (on : Bool) :
    s.flagInstr f on = (Claims.after s 1 2).setP (s.p.set f on) :=
  s.withTick_after fun t => t.setP (t.p.set f on)

end Sys2Proof.Machine
end

section
/-! The obligation on flag set and clear and no-operation (spec/46_flag_nop.md), from the law above. -/

open Sys2Proof Sys2Proof.Machine

/-- Settles O38: each of the seven writes its flag after its opcode byte; no-operation ends there. -/
theorem flagInstructionsWriteOneFlag : Obligations.FlagInstructionsWriteOneFlag := by
  intro s
  simp only [exec_eq_effect, Instr.mnemonic, Instr.form, State.effect, State.flagInstr_after, State.withTick_after,
    State.setP, Flags.set, id_eq, and_self]

end

section
/-! Compares in the terms of the rules: three flags from a register and the operand, the register read where the operand's
fetch has left it. -/

namespace Sys2Proof.Machine

/-- Reading an operand from memory leaves `X` alone (R75). -/
@[simp] theorem afterRead_x (s : State) (m : EaMode) : (Claims.afterRead s m).x = s.x := rfl

/-- Reading an operand from memory leaves `Y` alone (R75). -/
@[simp] theorem afterRead_y (s : State) (m : EaMode) : (Claims.afterRead s m).y = s.y := rfl

/-- The difference of two bytes as a number, modulo 256 (R135). -/
theorem byte_toNat_sub (b m : Byte) : (b - m).toNat = (b.toNat + 256 - m.toNat) % 256 := by
  bv_omega

/-- Two bytes are equal when their numbers are (R135). -/
theorem byte_beq_eq_decide_toNat (b m : Byte) : (b == m) = decide (b.toNat = m.toNat) := by
  rw [beq_eq_decide, decide_eq_decide, BitVec.toNat_eq]

/-- A compare assigns Carry, Zero and Negative from the order, the equality and the difference of two numbers (R135; D16). -/
theorem State.setP_compare_eq_compared (s : State) (reg m : Byte) :
    s.setP (s.p.compare reg m) = Claims.compared s reg m := by
  rw [Flags.compare, Claims.compared, byte_beq_eq_decide_toNat, byte_bit7, byte_toNat_sub]
  rfl

/-- R135: CMP compares `A`. -/
theorem State.cmpA_eq_compared (s : State) (m : Byte) : s.cmpA m = Claims.compared s s.a m :=
  s.setP_compare_eq_compared s.a m

/-- R136: CPX compares `X`. -/
theorem State.cmpX_eq_compared (s : State) (m : Byte) : s.cmpX m = Claims.compared s s.x m :=
  s.setP_compare_eq_compared s.x m

/-- R137: CPY compares `Y`. -/
theorem State.cmpY_eq_compared (s : State) (m : Byte) : s.cmpY m = Claims.compared s s.y m :=
  s.setP_compare_eq_compared s.y m

end Sys2Proof.Machine
end

section
/-! The obligation on compares (spec/47_compare.md), from the laws above. -/

open Sys2Proof Sys2Proof.Machine

/-- Settles O39: the effect of every mode is one compare of the instruction's register, in the state and with the byte that
its operand gives. -/
theorem comparesAssignThreeFlags : Obligations.ComparesAssignThreeFlags := by
  intro s
  simp only [exec_eq_effect, Instr.operand, Instr.mnemonic, Instr.form, State.effect, State.actOn_imm_after,
    State.actOn_ea_afterRead, State.cmpA_eq_compared, State.cmpX_eq_compared, State.cmpY_eq_compared, after_a, after_x,
    after_y, afterRead_a, afterRead_x, afterRead_y, implies_true, and_self]

end

section
/-! Add and subtract with carry in the terms of the rules: both add a byte and Carry to `A`, and the sum as a number gives
the new `A` and its three flags. -/

namespace Sys2Proof.Machine

/-- R140: `A`, Zero and Negative from the sum modulo 256, Carry set by a sum over 0xFF and otherwise kept (C2), `V` not
written (D27). -/
theorem State.addA_of_carrySum_eq {s : State} {m : Byte} {sum : Nat} (h : s.carrySum m = sum) :
    s.addA m = { s with
      a := BitVec.ofNat 8 sum
      p := { s.p with
        c := s.p.c || decide (255 < sum)
        z := decide (sum % 256 = 0)
        n := decide (128 ≤ sum % 256) } } := by
  have hnum : (BitVec.ofNat 8 sum).toNat = sum % 256 := BitVec.toNat_ofNat sum 8
  rw [State.addA, h, Flags.setCarryIfOverflow_eq, Flags.setZN_eq_zn, Claims.zn, hnum]
  rfl

/-- The sum of ADC (R140). -/
theorem State.carrySum_eq (s : State) (m : Byte) :
    s.carrySum m = s.a.toNat + m.toNat + (if s.p.c then 1 else 0) := by
  rw [State.carrySum, Bool.toNat, Bool.cond_eq_ite]

/-- The sum of SBC: adding the complement of a byte and Carry is subtracting the byte and the complement of Carry from 256
more (R141). -/
theorem State.carrySum_not (s : State) (m : Byte) :
    s.carrySum (~~~m) = s.a.toNat + 256 - (m.toNat + (if s.p.c then 0 else 1)) := by
  have hm : m.toNat < 256 := m.isLt
  rw [State.carrySum_eq, BitVec.toNat_not]
  split <;> omega

/-- ADC adds its operand to `A` after its two bytes, for two cycles (R140, R182). -/
theorem exec_adcImm (n : Byte) (s : State) : exec (.adcImm n) s = .next ((Claims.after s 2 2).addA n) := by
  rw [exec_eq_effect]
  exact congrArg _ (s.actOn_imm_after n State.addA)

/-- SBC adds the complement of its operand to `A`, where ADC adds the operand (R141). -/
theorem exec_sbcImm (n : Byte) (s : State) : exec (.sbcImm n) s = exec (.adcImm (~~~n)) s := by
  rw [exec_eq_effect, exec_eq_effect]
  rfl

end Sys2Proof.Machine
end

section
/-! The obligations on add and subtract with carry (spec/48_adc_sbc.md), from the laws above. -/

open Sys2Proof Sys2Proof.Machine

/-- Settles O40: the sum of ADC is the rule's. -/
theorem adcAddsWithASetOnlyCarry : Obligations.AdcAddsWithASetOnlyCarry := by
  intro s n sum hsum
  have hcarry : (Claims.after s 2 2).carrySum n = sum := by rw [hsum]; exact State.carrySum_eq _ n
  rw [exec_adcImm, State.addA_of_carrySum_eq hcarry]
  rfl

/-- Settles O41: the sum of SBC exceeds 0xFF exactly when no borrow is needed. -/
theorem sbcSubtractsWithASetOnlyCarry : Obligations.SbcSubtractsWithASetOnlyCarry := by
  intro s n take htake
  have hcarry : (Claims.after s 2 2).carrySum (~~~n) = s.a.toNat + 256 - take := by
    rw [htake]; exact State.carrySum_not _ n
  have hborrow : decide (take ≤ s.a.toNat) = decide (255 < s.a.toNat + 256 - take) := by
    rw [decide_eq_decide]; omega
  rw [exec_sbcImm, exec_adcImm, State.addA_of_carrySum_eq hcarry, hborrow]
  rfl

end

section
/-! The step and the loop at an instruction boundary, by what stands there: an ended run, an unsupported byte, or the bytes
of an instruction. -/

namespace Sys2Proof.Machine

/-! ### An ended run -/

/-- A spent budget is held (R160, R178 a). -/
theorem step_of_endedNormally {s : State} (h : s.EndedNormally) : step s = .next s := by
  obtain ⟨hf, hc⟩ := h
  rw [step, hf]
  exact if_pos hc

/-- A latched fault is the outcome (R178 b). -/
theorem step_of_latched {s : State} {f : Fault} (h : s.fault = some f) : step s = .fault f := by
  rw [step, h]

/-- The loop stays where it is once the run has ended (R178). -/
theorem runLoop_of_ended (n : Nat) {s : State} (h : s.Ended) : runLoop n s = s := by
  induction n with
  | zero => rfl
  | succ n ih =>
    cases hf : s.fault with
    | some f => rw [runLoop, step_of_latched hf]
    | none =>
      have hc : s.cyc ≤ 0 := h.resolve_left (not_not_intro hf)
      rw [runLoop, step_of_endedNormally ⟨hf, hc⟩]
      exact ih

/-- Turns of the loop add up. -/
theorem runLoop_add (m n : Nat) (s : State) : runLoop (m + n) s = runLoop n (runLoop m s) := by
  induction m generalizing s with
  | zero => rw [Nat.zero_add]; rfl
  | succ m ih =>
    by_cases hf : s.fault = none
    · obtain ⟨t, ht⟩ := step_next_of_unlatched hf
      rw [Nat.succ_add, runLoop, runLoop, ht]
      exact ih t
    · have hend : s.Ended := .inl hf
      rw [runLoop_of_ended _ hend, runLoop_of_ended _ hend, runLoop_of_ended _ hend]

/-- Going round the loop more often than the run needs changes nothing (R178). -/
theorem runLoop_of_le {m n : Nat} {s : State} (hend : (runLoop m s).Ended) (h : m ≤ n) :
    runLoop n s = runLoop m s := by
  obtain ⟨k, rfl⟩ := Nat.exists_eq_add_of_le h
  rw [runLoop_add, runLoop_of_ended k hend]

/-! ### Decoding at PC -/

/-- The three bytes at `PC` are what three fetches give (R35, R50). -/
theorem State.codeBytes_maxInstrLength (s : State) : s.codeBytes Config.maxInstrLength = Claims.threeBytes s := by
  have hpc : s.pc + 1 + 1 = s.pc + 2 := BitVec.add_assoc ..
  rw [Claims.threeBytes, ← hpc]
  rfl

/-- What the three bytes at `PC` decode to is what decoding at `PC` gives: the bytes left over play no part (R51). -/
theorem State.decodeAt_of_threeBytes {s : State} {i : Instr} {rest : List Byte}
    (h : decode (Claims.threeBytes s) = .ok i rest) : s.decodeAt = .ok i [] := by
  cases hl : lookup (s.byteAt s.pc) with
  | none =>
    have herr : decode (Claims.threeBytes s) = .error _ := lengthIsFixedByTheOpcode.2 _ hl _
    rw [herr] at h
    cases h
  | some row =>
    obtain ⟨j, hj⟩ := State.decodeAt_of_lookup hl
    obtain ⟨more, hmore⟩ := State.decode_codeBytes_of_decodeAt hj
    rw [s.codeBytes_maxInstrLength, h] at hmore
    cases hmore
    exact hj

end Sys2Proof.Machine
end

section
/-! The obligations on the exception (spec/60_exceptions.md) and on the step and the run (spec/70_reset_and_hazards.md), from
the laws above. -/

open Sys2Proof Sys2Proof.Machine

/-- Settles O9: an unsupported byte has no row, so nothing decodes and the exception is taken. -/
theorem unsupportedOpcodeIsTaken : Obligations.UnsupportedOpcodeIsTaken := by
  intro s ⟨hf, hc⟩ hbyte
  have hd := State.decodeAt_of_lookup_none (lookup_eq_none_iff.mpr hbyte)
  rw [step_of_decodeAt_error hf hc hd]
  rfl

/-- Settles O10: of the three things a step can do, only taking the exception latches a fault, and it is taken only where
nothing decodes. -/
theorem theFaultIsPrecise : Obligations.TheFaultIsPrecise := by
  intro s t h hfault
  obtain ⟨hf, ⟨-, rfl⟩ | ⟨-, i, rest, -, he⟩ | ⟨-, e, hd, rfl⟩⟩ := step_next_cases h
  · exact absurd hf hfault
  · obtain rfl := eq_next_of_exec he
    exact absurd hf hfault
  · exact ⟨lookup_eq_none_iff.mp (State.decodeAt_error hd), rfl, rfl, rfl, rfl, rfl, rfl, rfl, rfl⟩

/-- Settles O55: `budget` turns end the run, and turns after its end change nothing. -/
theorem everyRunEnds : Obligations.EveryRunEnds := by
  intro s budget
  have hend : (s.hostExec budget).Ended := runLoop_ended _ (by simp [State.startRun])
  exact ⟨hend, fun n hn => runLoop_of_le hend hn⟩

/-- Settles O6: decoding at PC takes from the three bytes those that the opcode asks for. -/
theorem stepRunsTheDecodedInstruction : Obligations.StepRunsTheDecodedInstruction :=
  fun _ _ _ ⟨hf, hc⟩ h => step_of_decodeAt hf hc (State.decodeAt_of_threeBytes h)

/-- Settles O7: the step holds a spent run. -/
theorem spentBudgetHoldsTheCore : Obligations.SpentBudgetHoldsTheCore :=
  fun _ => step_of_endedNormally

/-- Settles O8: the step looks at the latch first. -/
theorem latchedFaultStopsTheStep : Obligations.LatchedFaultStopsTheStep :=
  fun _ _ => step_of_latched

/-- Settles O57: such a budget is spent from the start of the run, so the loop stays there. -/
theorem noBudgetRunsNothing : Obligations.NoBudgetRunsNothing :=
  fun s _ hb => runLoop_of_ended _ (s := s.startRun _) (.inr hb)

end
